-- ==== Sys2Proof/Word.lean ====
section
/-! DEFINITION. The words of the machine: bytes, 16-bit values, request words, and what a transport read returns. -/

namespace Sys2Proof

/-- A byte: every wire quantity (R9, R10). -/
abbrev Byte := BitVec 8

/-- A 16-bit value: RESULT, a position, a duration, an argument of a request (R9). -/
abbrev Half := BitVec 16

/-- The 48-bit host request word REQ (R104). -/
abbrev ReqWord := BitVec 48

/-- What the transport's `read_byte` answers: `Byte(b)` or `Timeout` (R13, R296). -/
inductive ReadResult where
  | byte (b : Byte)
  | timeout
  deriving DecidableEq, Repr, Inhabited

/-- When ARM flushes (R9, D8). -/
inductive FlushPolicy where
  | everyAttempt
  | firstAttempt
  deriving DecidableEq, Repr

/-- The parity of a line format. -/
inductive Parity where
  | none
  | even
  | odd
  deriving DecidableEq, Repr

/-- How the transport frames a byte on the line (R9, R311). -/
structure LineFormat where
  dataBits : Nat
  parity : Parity
  stopBits : Nat
  deriving DecidableEq, Repr

end Sys2Proof
end

