-- ==== Sys2Proof/Syntax.lean ====
section
/-! DEFINITION. The instructions: one constructor per row of spec/opcode_table.json, and the two formats of their words. -/

namespace Sys2Proof

/-- The rows of spec/opcode_table.json: ten request operations (R105, operands R106), then eight wire commands (R96). -/
inductive Instr where
  /-- QUERY_ID, OP 0x1 (R200). -/
  | queryId
  /-- SET_ID, OP 0x2 (R201). -/
  | setId (newId : Byte)
  /-- READ_POS, OP 0x3 (R202). -/
  | readPos (id : Byte)
  /-- MOVE, OP 0x4 (R204). -/
  | move (id : Byte) (position duration : Half)
  /-- MOVE_WAIT, OP 0x5 (R205). -/
  | moveWait (id : Byte) (position duration : Half)
  /-- START, OP 0x6 (R206). -/
  | start
  /-- STOP, OP 0x7 (R207). -/
  | stop
  /-- ENABLE, OP 0x8 (R208). -/
  | enable (id mode : Byte)
  /-- TX_RAW, OP 0x9 (R209): the payload is the first `n` bytes of TXPL. -/
  | txRaw (id command : Byte) (n : BitVec 6)
  /-- RX_FRAME, OP 0xA (R210). -/
  | rxFrame
  /-- MOVE_TIME_WRITE, command 1, sent by MOVE (R204). -/
  | moveTimeWrite
  /-- MOVE_TIME_WAIT_WRITE, command 7, sent by MOVE_WAIT (R205). -/
  | moveTimeWaitWrite
  /-- MOVE_START, command 11, sent by START (R206). -/
  | moveStart
  /-- MOVE_STOP, command 12, sent by STOP (R207). -/
  | moveStop
  /-- ID_WRITE, command 13, sent by SET_ID (R201). -/
  | idWrite
  /-- ID_READ, command 14, sent by QUERY_ID (R200). -/
  | idRead
  /-- POS_READ, command 28, sent by READ_POS (R202). -/
  | posRead
  /-- LOAD_UNLOAD_WRITE, command 31, sent by ENABLE (R208). -/
  | loadUnloadWrite
  deriving DecidableEq, Repr

/-- An instruction's word, in the format its row of the table has: REQ (48 bits) or FRAME_CMD (8 bits). -/
inductive CodeWord where
  | request (w : ReqWord)
  | command (c : Byte)
  deriving DecidableEq, Repr

end Sys2Proof
end

