-- ==== Sys2Proof/Decode.lean ====
section
/-! DEFINITION. The encodings (30_encoding R96, R104 to R107): the decoder of request words and of wire command bytes, total
and rejecting by name, and then the encoder. Operand RANGES are no matter of decoding: an operand outside its range is
refused by the instruction's meaning, with the code R190 gives (entry 11). -/

namespace Sys2Proof

/-! Operation codes (R105) and command bytes (R96). -/

abbrev Op.queryId : BitVec 4 := 0x1
abbrev Op.setId : BitVec 4 := 0x2
abbrev Op.readPos : BitVec 4 := 0x3
abbrev Op.move : BitVec 4 := 0x4
abbrev Op.moveWait : BitVec 4 := 0x5
abbrev Op.start : BitVec 4 := 0x6
abbrev Op.stop : BitVec 4 := 0x7
abbrev Op.enable : BitVec 4 := 0x8
abbrev Op.txRaw : BitVec 4 := 0x9
abbrev Op.rxFrame : BitVec 4 := 0xA

abbrev Cmd.moveTimeWrite : Byte := 1
abbrev Cmd.moveTimeWaitWrite : Byte := 7
abbrev Cmd.moveStart : Byte := 11
abbrev Cmd.moveStop : Byte := 12
abbrev Cmd.idWrite : Byte := 13
abbrev Cmd.idRead : Byte := 14
abbrev Cmd.posRead : Byte := 28
abbrev Cmd.loadUnloadWrite : Byte := 31

/-! Fields of the request word (R104). -/

/-- `OP`, bits 3:0. -/
def reqOp (w : ReqWord) : BitVec 4 := w.extractLsb' 0 4

/-- `RSV`, bits 7:4. -/
def reqRsv (w : ReqWord) : BitVec 4 := w.extractLsb' 4 4

/-- `ID`, bits 15:8. -/
def reqId (w : ReqWord) : Byte := w.extractLsb' 8 8

/-- `A`, bits 31:16. -/
def reqA (w : ReqWord) : Half := w.extractLsb' 16 16

/-- `B`, bits 47:32. -/
def reqB (w : ReqWord) : Half := w.extractLsb' 32 16

/-- `A[7:0]`: new id, mode or command (R106). -/
def argByte (a : Half) : Byte := a.extractLsb' 0 8

/-- `A[15:8]`: reserved in SET_ID and ENABLE (R106). -/
def argHigh (a : Half) : Byte := a.extractLsb' 8 8

/-- `A[13:8]`: the payload length of TX_RAW (R106). -/
def argCount (a : Half) : BitVec 6 := a.extractLsb' 8 6

/-- `A[15:14]`: reserved in TX_RAW (R106). -/
def argTop (a : Half) : BitVec 2 := a.extractLsb' 14 2

/-- Why a word is no instruction. -/
inductive DecodeError where
  /-- OP 0x0 or 0xB..0xF (R107, R211). -/
  | badOp
  /-- RSV or a field reserved for the operation is not 0 (R107). -/
  | reservedField
  /-- A command byte that is no row of the table (R98). -/
  | unlistedCommand
  deriving DecidableEq, Repr

/-- The instruction, unless a field that must be 0 is not. -/
def unlessReserved (nonzero : Bool) (i : Instr) : Except DecodeError Instr :=
  if nonzero then .error .reservedField else .ok i

/-- A request word (R104 to R107): the OP check, then the reserved fields, as R190 orders them. -/
def decodeReq (w : ReqWord) : Except DecodeError Instr :=
  let rsv := reqRsv w != 0
  let id := reqId w
  let a := reqA w
  let b := reqB w
  match (reqOp w).toNat with
  | 0x1 => unlessReserved (rsv || id != 0 || a != 0 || b != 0) .queryId
  | 0x2 => unlessReserved (rsv || id != 0 || argHigh a != 0 || b != 0) (.setId (argByte a))
  | 0x3 => unlessReserved (rsv || a != 0 || b != 0) (.readPos id)
  | 0x4 => unlessReserved rsv (.move id a b)
  | 0x5 => unlessReserved rsv (.moveWait id a b)
  | 0x6 => unlessReserved (rsv || id != 0 || a != 0 || b != 0) .start
  | 0x7 => unlessReserved (rsv || id != 0 || a != 0 || b != 0) .stop
  | 0x8 => unlessReserved (rsv || argHigh a != 0 || b != 0) (.enable id (argByte a))
  | 0x9 => unlessReserved (rsv || argTop a != 0 || b != 0) (.txRaw id (argByte a) (argCount a))
  | 0xA => unlessReserved (rsv || id != 0 || a != 0 || b != 0) .rxFrame
  | _ => .error .badOp

/-- A wire command byte (R96). -/
def decodeCmd (c : Byte) : Except DecodeError Instr :=
  match c.toNat with
  | 1 => .ok .moveTimeWrite
  | 7 => .ok .moveTimeWaitWrite
  | 11 => .ok .moveStart
  | 12 => .ok .moveStop
  | 13 => .ok .idWrite
  | 14 => .ok .idRead
  | 28 => .ok .posRead
  | 31 => .ok .loadUnloadWrite
  | _ => .error .unlistedCommand

/-- The instruction of a word, by its format. -/
def decode : CodeWord → Except DecodeError Instr
  | .request w => decodeReq w
  | .command c => decodeCmd c

/-- The word whose bits are `w`, in the format a row of `nbits` bits has: 8 bits is a command byte, more a request word. -/
def tableWord (nbits w : Nat) : CodeWord :=
  if nbits ≤ 8 then .command (BitVec.ofNat 8 w) else .request (BitVec.ofNat 48 w)

/-- What the decoder reads from a row's word, numbered as spec/opcode_table.json numbers it. -/
def decodeTableWord (nbits w : Nat) : Option Instr :=
  match decode (tableWord nbits w) with
  | .ok i => some i
  | .error _ => none

/-! The encoder. -/

/-- A request word from its fields, RSV 0: `{B, A, ID, 0000, OP}` (R115). -/
def packReq (op : BitVec 4) (id : Byte) (a b : Half) : ReqWord := b ++ a ++ id ++ (0 : BitVec 4) ++ op

/-- Argument A from a byte in `A[7:0]`. -/
def packByte (v : Byte) : Half := (0 : Byte) ++ v

/-- Argument A of TX_RAW: the command in `A[7:0]`, the length in `A[13:8]` (R106). -/
def packRaw (command : Byte) (n : BitVec 6) : Half := (0 : BitVec 2) ++ n ++ command

/-- An instruction's word (R104 to R106, R96). -/
def encode : Instr → CodeWord
  | .queryId => .request (packReq Op.queryId 0 0 0)
  | .setId newId => .request (packReq Op.setId 0 (packByte newId) 0)
  | .readPos id => .request (packReq Op.readPos id 0 0)
  | .move id position duration => .request (packReq Op.move id position duration)
  | .moveWait id position duration => .request (packReq Op.moveWait id position duration)
  | .start => .request (packReq Op.start 0 0 0)
  | .stop => .request (packReq Op.stop 0 0 0)
  | .enable id mode => .request (packReq Op.enable id (packByte mode) 0)
  | .txRaw id command n => .request (packReq Op.txRaw id (packRaw command n) 0)
  | .rxFrame => .request (packReq Op.rxFrame 0 0 0)
  | .moveTimeWrite => .command Cmd.moveTimeWrite
  | .moveTimeWaitWrite => .command Cmd.moveTimeWaitWrite
  | .moveStart => .command Cmd.moveStart
  | .moveStop => .command Cmd.moveStop
  | .idWrite => .command Cmd.idWrite
  | .idRead => .command Cmd.idRead
  | .posRead => .command Cmd.posRead
  | .loadUnloadWrite => .command Cmd.loadUnloadWrite

end Sys2Proof
end

