-- ==== Sys2Proof/Config.lean ====
section
/-! DEFINITION. The parameters of SBPF-v7 (00_scope R9) and the free values: constants with no body, so that no proof can
rest on what they are. -/

namespace Sys2Proof

/-- `SYNC`: both sync bytes (R9). -/
abbrev Config.sync : Byte := 0x55

/-- `BCAST`: the broadcast identifier (R9, R95). -/
abbrev Config.bcast : Byte := 0xFE

/-- `RSVD_ID`: the reserved identifier (R9, R95). -/
abbrev Config.rsvdId : Byte := 0xFF

/-- `MAX_UNICAST_ID`: the highest single-device identifier (R9). -/
abbrev Config.maxUnicastId : Byte := 0xFD

/-- `FB_CAP`: bytes in the frame buffer, id through checksum (R9, C2). -/
abbrev Config.fbCap : Nat := 64

/-- `MIN_LEN`: the smallest length byte accepted on receive (R9). -/
abbrev Config.minLen : Nat := 3

/-- `MAX_RX_LEN = FB_CAP - 1`: the largest length byte accepted on receive (R9). -/
abbrev Config.maxRxLen : Nat := 63

/-- `MAX_TX_PAYLOAD`: the largest payload the encoder accepts, and the size of TXPL (R9, R33). -/
abbrev Config.maxTxPayload : Nat := 59

/-- `T_BYTE`, in milliseconds: handed to the transport, never measured (R9, R278; entry 21). -/
abbrev Config.tByteMs : Nat := 5

/-- `POS_MIN`: lowest raw position a move sends (R9, R212). -/
abbrev Config.posMin : Int := 125

/-- `POS_MAX`: highest raw position a move sends (R9, R212). -/
abbrev Config.posMax : Int := 875

/-- `BAUD`: the transport's line rate. No rule of SBPF depends on it (R9). -/
abbrev Config.baud : Nat := 115200

/-- The transport's line format, 8N1: 8 data bits, no parity, 1 stop bit. No rule of SBPF depends on it (R9, R311). -/
abbrev Config.lineFormat : LineFormat := { dataBits := 8, parity := .none, stopBits := 1 }

/-- `FLUSH_POLICY` as SBPF-v7 takes it (R9, D8; entry 6). -/
abbrev Config.flushPolicy : FlushPolicy := .everyAttempt

/-- `FAIL_SENTINEL`: OPEN in the spec (R9, D13, I6), so a free value. DESIGN CHOICE, safe: entry 5. -/
opaque Config.failSentinel : Half

/-- FB after the `k`-th reset, byte `i`, until an attempt writes it: any value (R41, I9). DESIGN CHOICE, safe: entry 4. -/
opaque Config.freeFb : Nat → Nat → Byte

/-- TXPL after the `k`-th reset, byte `i`, until the host writes it: any value (R41, I9). DESIGN CHOICE, safe: entry 4. -/
opaque Config.freeTxpl : Nat → Nat → Byte

/-- The `k`-th read result that the listed receive stream does not give: any value (R296, I18, D34).
DESIGN CHOICE, safe: entry 2. -/
opaque Config.freeRead : Nat → ReadResult

/-- How much of the unread stream the `k`-th unlisted flush drops: any number (R70, I11, D34). DESIGN CHOICE, safe: entry 3. -/
opaque Config.freeFlush : Nat → Nat

end Sys2Proof
end

