-- ==== Sys2Proof/Machine/Codec.lean ====
section
/-! DEFINITION. The arithmetic of SBPF (41_frame_codec R135) and the frame codec: sums, checksum, the frame layout, and the
assembly and split of 16-bit values. -/

namespace Sys2Proof.Machine

/-- `sum8(p)`: the sum of the bytes mod 256, 0 for the empty list (R11). -/
def sum8 : List Byte → Byte
  | [] => 0
  | b :: p => b + sum8 p

/-- `csum(p) = ~8 sum8(p)` (R130). -/
def csum (p : List Byte) : Byte := ~~~(sum8 p)

/-- `le16(lo, hi)` (R11, R66). -/
def le16 (lo hi : Byte) : Half := hi ++ lo

/-- `v[7:0]` (R135). -/
def lowByte (v : Half) : Byte := v.extractLsb' 0 8

/-- `v[15:8]` (R135). -/
def highByte (v : Half) : Byte := v.extractLsb' 8 8

/-- `zext_16(b)` (R10). -/
def zext16 (b : Byte) : Half := (0 : Byte) ++ b

/-- The length byte of a frame with payload `p`: `3 + |p|` (R91). -/
def lengthByte (p : List Byte) : Byte := BitVec.ofNat 8 (3 + p.length)

/-- The summed bytes of a frame: id, length, command, payload (R132). -/
def frameBody (id cmd : Byte) (p : List Byte) : List Byte := id :: lengthByte p :: cmd :: p

/-- `encode(id, cmd, p)` (R132), meant for at most 59 payload bytes (R133). -/
def encodeFrame (id cmd : Byte) (p : List Byte) : List Byte :=
  Config.sync :: Config.sync :: (frameBody id cmd p ++ [csum (frameBody id cmd p)])

end Sys2Proof.Machine
end

