-- ==== Sys2Proof/Machine/State.lean ====
section
/-! DEFINITION. The state as plain data: every element of 10_state R22, the reset input (R310), the environment of the
transport (R65, R70) and the model's own bookkeeping (INVENTORY.md, '## State'). -/

namespace Sys2Proof.Machine

/-- `ESTATE`, the engine step selector (R24). Value 7 is `reserved`, never entered (R42). -/
inductive EState where
  | idle
  | txdir
  | txsend
  | rxdir
  | arm
  | parse
  | filter
  | reserved
  deriving DecidableEq, Repr

/-- `PSTATE`, the parser state (R27). Value 7 is `reserved`, never entered (R42). -/
inductive PState where
  | seekSync1
  | seekSync2
  | readId
  | readLength
  | readBody
  | complete
  | failed
  | reserved
  deriving DecidableEq, Repr

/-- `PFAIL`, why the last attempt ended in FAILED (R31). -/
inductive PFail where
  | none
  | timeout
  | checksum
  | length
  deriving DecidableEq, Repr

/-- `DIR`, the last direction SBPF asked for (R23). -/
inductive Dir where
  | receive
  | transmit
  deriving DecidableEq, Repr

/-- `STATUS.CODE` (R111). The value 7 is never produced. -/
inductive Code where
  | ok
  | timeout
  | checksum
  | length
  | badOp
  | badId
  | badArg
  deriving DecidableEq, Repr

/-- A transport call SBPF makes (R13, R296). -/
inductive BusCall where
  | setDir (d : Dir)
  | send (frame : List Byte)
  | flush
  | read (waitMs : Nat)
  deriving DecidableEq, Repr

/-- A host access to the register space: `MemRead(HOST, idx, n)` or `MemWrite(HOST, idx, n, v)` (R12, R60, R61). -/
inductive HostAccess where
  | read (idx : BitVec 8) (n : Nat)
  | write (idx : BitVec 8) (n v : Nat)
  deriving DecidableEq, Repr

/-- Who moves next (R8, R69): SBPF, the host, or the reset input, which takes a level (R310). Entry 1. -/
inductive Turn where
  | sbpf
  | host (a : HostAccess)
  | resetInput (level : Bool)
  deriving DecidableEq, Repr

/-- The cells of a buffer that have been written since reset: indices strictly rising. An unlisted cell has no entry to
equal, since what it reads as is a free value (entry 4). -/
abbrev Memory := List Host.Cell

/-- The canonical form of a buffer of `cap` bytes. -/
abbrev Memory.wf (cap : Nat) (m : Memory) : Prop :=
  m.Pairwise (fun x y => x.1 < y.1) ∧ ∀ c ∈ m, c.1 < cap

/-- The whole machine (R22), then its surroundings. -/
structure State where
  /-- ESTATE (R24). -/
  estate : EState
  /-- OPR (R25). -/
  opr : BitVec 4
  /-- RID (R25). -/
  rid : Byte
  /-- RA (R25). -/
  ra : Half
  /-- RB (R25). -/
  rb : Half
  /-- FIRST (R26). -/
  first : Bool
  /-- DIR (R23). -/
  dir : Dir
  /-- PSTATE (R27). -/
  pstate : PState
  /-- ACC (R28). -/
  acc : Byte
  /-- CNT, 0..64 (R29). -/
  cnt : BitVec 7
  /-- FLEN (R30). -/
  flen : Byte
  /-- PFAIL (R31). -/
  pfail : PFail
  /-- FB[0..63] (R32). -/
  fb : Memory
  /-- TXPL[0..58] (R33). -/
  txpl : Memory
  /-- STATUS.DONE (R34). -/
  done : Bool
  /-- STATUS.FAIL (R34). -/
  fail : Bool
  /-- STATUS.OVR (R34). -/
  ovr : Bool
  /-- STATUS.CODE (R34). -/
  code : Code
  /-- RESULT (R36). -/
  result : Half
  /-- The reset input: asserted (R310). -/
  rst : Bool
  /-- Results of the reads to come, in order, as far as they are listed (R65, R70). -/
  rxStream : List ReadResult
  /-- The model's own: how much of the unread stream the next flushes drop, as far as they are listed (entry 3). -/
  flushDraws : List Nat
  /-- The model's own: free read results used so far (entry 2). -/
  readCount : Nat
  /-- The model's own: free flush draws used so far (entry 3). -/
  flushCount : Nat
  /-- The model's own: resets made, so that each leaves fresh unspecified buffers (entry 4). -/
  resets : Nat
  /-- The model's own: transport calls made, newest first (entry 7). -/
  busLog : List BusCall
  /-- The model's own: the value the host's last read returned (entry 8). -/
  rdata : Half
  /-- The model's own: the turns to come; when none is listed SBPF moves (entry 1). -/
  schedule : List Turn
  deriving DecidableEq, Repr

/-- Why the machine stops. No run from a state that meets the invariant of Safety.lean raises one (R42; entry 14), and each
is safe: a claim about a next state says nothing of a state that stops. -/
inductive Fault where
  /-- ESTATE = 7 (R42, I3). Raised by SBPF's step; safe. -/
  | reservedEState
  /-- PSTATE = 7 in any step SBPF takes, with ESTATE neither IDLE, where it takes none, nor 7 (R42, I3). Raised by SBPF's
  step; safe. -/
  | reservedPState
  /-- A PARSE step with PSTATE COMPLETE or FAILED, which R152 says is never taken. Raised by SBPF's step; safe. -/
  | parseAfterEnd
  /-- READ_BODY with CNT past the end of the body or of FB: no row of the transition table applies (R157, R158, R171).
  Raised by SBPF's step; safe. -/
  | bodyOverrun
  /-- TXSEND with an OPR for which `txframe()` names no frame: RX_FRAME or a reserved OP (R136). Raised by SBPF's step; safe. -/
  | noFrame
  /-- TXSEND of TX_RAW with more than 59 payload bytes: `encode` has no meaning (R133). Raised by SBPF's step; safe. -/
  | oversizePayload
  /-- FILTER with an OPR that awaits no frame: R195 gives no case. Raised by SBPF's step; safe. -/
  | noFilterCase
  deriving DecidableEq, Repr

/-- Why an instruction has no meaning. -/
inductive Refusal where
  /-- Raised by an arm of `exec` that has no meaning yet; there is none. Safe: nothing is claimed of it. -/
  | notModelled (mnemonic : String)
  deriving DecidableEq, Repr

/-- Right after reset (R41); the surroundings as entry 22 says. -/
def State.reset : State where
  estate := .idle
  opr := 0
  rid := 0
  ra := 0
  rb := 0
  first := false
  dir := .receive
  pstate := .seekSync1
  acc := 0
  cnt := 0
  flen := 0
  pfail := .none
  fb := []
  txpl := []
  done := false
  fail := false
  ovr := false
  code := .ok
  result := 0
  rst := false
  rxStream := []
  flushDraws := []
  readCount := 0
  flushCount := 0
  resets := 0
  busLog := []
  rdata := 0
  schedule := []

end Sys2Proof.Machine
end

