-- ==== Sys2Proof/Machine/Ops.lean ====
section
/-! DEFINITION. The named operations: the buffers, the transport calls, how an operation starts and ends, how an error is
taken, and reset. -/

namespace Sys2Proof.Machine

/-- `ESTATE <- e` (R14). -/
def setEState (e : EState) (s : State) : State := { s with estate := e }

/-- `PSTATE <- p`. -/
def setPState (p : PState) (s : State) : State := { s with pstate := p }

/-- `ACC <- v`. -/
def setAcc (v : Byte) (s : State) : State := { s with acc := v }

/-! Buffers (R32, R33). -/

/-- The byte listed at `a`, if it has been written. -/
def Memory.read : Memory → Nat → Option Byte
  | [], _ => none
  | (k, v) :: m, a => if k = a then some v else Memory.read m a

/-- Writes `b` at `a`, keeping the indices rising. -/
def Memory.write : Memory → Nat → Byte → Memory
  | [], a, b => [(a, b)]
  | (k, v) :: m, a, b =>
    if a < k then (a, b) :: (k, v) :: m
    else if a = k then (a, b) :: m
    else (k, v) :: Memory.write m a b

/-- `FB[i]`: what was written there, else the unspecified value reset left (R41, I9). -/
def fbRead (s : State) (i : Nat) : Byte := (Memory.read s.fb i).getD (Config.freeFb s.resets i)

/-- `TXPL[i]`: what was written there, else the unspecified value reset left (R41, I9). -/
def txplRead (s : State) (i : Nat) : Byte := (Memory.read s.txpl i).getD (Config.freeTxpl s.resets i)

/-- `TXPL[i] <- b`. -/
def txplWrite (i : Nat) (b : Byte) (s : State) : State := { s with txpl := Memory.write s.txpl i b }

/-- `TXPL[0..n-1]` (R136). -/
def txplTake (n : Nat) (s : State) : List Byte := (List.range n).map (txplRead s)

/-- `FB[0..n-1]` (R11, R28). -/
def fbTake (n : Nat) (s : State) : List Byte := (List.range n).map (fbRead s)

/-! Transport calls (R13, R296). Each is recorded in `busLog` (entry 7) and returns (entry 17). -/

/-- `T.dir(d)`, and `DIR <- d`, which records it (R23, R137, R139). -/
def turnLine (d : Dir) (s : State) : State := { s with busLog := .setDir d :: s.busLog, dir := d }

/-- `T.send(f)`. -/
def tSend (f : List Byte) (s : State) : State := { s with busLog := .send f :: s.busLog }

/-- How much of the unread stream the next flush drops: as listed, else a free value (R70, I11; entry 3). -/
def flushAmount (s : State) : Nat := s.flushDraws.headD (Config.freeFlush s.flushCount)

/-- `T.flush()` (R70). -/
def tFlush (s : State) : State :=
  { s with
    rxStream := s.rxStream.drop (flushAmount s)
    flushDraws := s.flushDraws.tail
    flushCount := if s.flushDraws = [] then s.flushCount + 1 else s.flushCount
    busLog := .flush :: s.busLog }

/-- What `T.read(T_BYTE)` answers: as the stream lists, else a free value (R296, I18). -/
def readResult (s : State) : ReadResult := s.rxStream.headD (Config.freeRead s.readCount)

/-- The state after `T.read(T_BYTE)`: one result consumed. -/
def tRead (s : State) : State :=
  { s with
    rxStream := s.rxStream.tail
    readCount := if s.rxStream = [] then s.readCount + 1 else s.readCount
    busLog := .read Config.tByteMs :: s.busLog }

/-! The end of an operation, and taking an error (R192, R196, R197, R274). -/

/-- `finish_ok(v)` (R196). OVR keeps its value. -/
def finishOk (v : Half) (s : State) : State :=
  { s with result := v, done := true, fail := false, code := .ok, estate := .idle }

/-- What every error writes (R270, R274): the sentinel, DONE, FAIL and the code. -/
def takeError (c : Code) (s : State) : State :=
  { s with result := Config.failSentinel, done := true, fail := true, code := c }

/-- `finish_fail(c)` (R197): the error ends the operation. OVR keeps its value. -/
def finishFail (c : Code) (s : State) : State := setEState .idle (takeError c s)

/-- `STATUS.OVR <- 0`. -/
def clearOverrun (s : State) : State := { s with ovr := false }

/-- `raise RequestError(c)` (R192): the error of a request word written in IDLE. OVR is cleared. -/
def requestError (c : Code) (s : State) : State := clearOverrun (takeError c s)

/-- `raise ParseFail(c)` (R170). -/
def parseFail (c : PFail) (s : State) : State := { s with pfail := c, pstate := .failed }

/-! The start of an operation (R190, R191, R252). -/

/-- `accept(op, id, a, b)` (R191), going to the engine step `e`. -/
def accept (op : BitVec 4) (id : Byte) (a b : Half) (e : EState) (s : State) : State :=
  { s with
    opr := op, rid := id, ra := a, rb := b, first := true
    done := false, fail := false, ovr := false, code := .ok
    result := 0
    estate := e }

/-- A request written while busy: dropped, and OVR set (R252). -/
def setOverrun (s : State) : State := { s with ovr := true }

/-- A write of REQ (R252): `taken` when idle, else dropped. -/
def whenIdle (taken : State → State) (s : State) : State :=
  if s.estate = .idle then taken s else setOverrun s

/-! Reset (R41, R310, R312). -/

/-- Every element of R22 at its value after reset, with the reset input at `level`; FB and TXPL get fresh unspecified
contents. The surroundings (transport, turns to come, record of calls, last read) are no part of R22 and stay (entry 10). -/
def resetRegisters (level : Bool) (s : State) : State :=
  { State.reset with
    rst := level
    rxStream := s.rxStream
    flushDraws := s.flushDraws
    readCount := s.readCount
    flushCount := s.flushCount
    resets := s.resets + 1
    busLog := s.busLog
    rdata := s.rdata
    schedule := s.schedule }

/-- The reset input takes a level (R310): asserted, the operation in flight is abandoned (R312); released, every element has
its value of R41; a level it already has low changes nothing (entry 10). -/
def driveReset (level : Bool) (s : State) : State :=
  if level || s.rst then resetRegisters level s else s

end Sys2Proof.Machine
end

