-- ==== Sys2Proof/Machine/Operands.lean ====
section
/-! DEFINITION. The operand forms of the operations: range checks (R190), the clamped position (R212), the payloads of R97 and
the command byte an operation sends (R96, R136). -/

namespace Sys2Proof.Machine

/-- `clamp_pos(a)`: the position `s16(a)` held to POS_MIN..POS_MAX (R212). -/
def clampPos (a : Half) : Half :=
  if a.toInt < Config.posMin then BitVec.ofInt 16 Config.posMin
  else if a.toInt > Config.posMax then BitVec.ofInt 16 Config.posMax
  else a

/-- `[pos_lo, pos_hi, dur_lo, dur_hi]` from the latched request (R97, R136; entry 16). -/
def movePayload (s : State) : List Byte :=
  let p := clampPos s.ra
  [lowByte p, highByte p, lowByte s.rb, highByte s.rb]

/-- The latched request's byte argument as a payload: a new id or a mode (R97, R136). -/
def bytePayload (s : State) : List Byte := [argByte s.ra]

/-- The command byte the operation in flight sends, where the operation fixes it (R96, R136). -/
def commandOf (op : BitVec 4) : Option Byte :=
  match op.toNat with
  | 0x1 => some Cmd.idRead
  | 0x2 => some Cmd.idWrite
  | 0x3 => some Cmd.posRead
  | 0x4 => some Cmd.moveTimeWrite
  | 0x5 => some Cmd.moveTimeWaitWrite
  | 0x6 => some Cmd.moveStart
  | 0x7 => some Cmd.moveStop
  | 0x8 => some Cmd.loadUnloadWrite
  | _ => none

/-- The operation that sends a command byte (R96, read the other way); 0 for a byte that only TX_RAW sends. -/
def operationOf (c : Byte) : BitVec 4 :=
  match c.toNat with
  | 1 => Op.move
  | 7 => Op.moveWait
  | 11 => Op.start
  | 12 => Op.stop
  | 13 => Op.setId
  | 14 => Op.queryId
  | 28 => Op.readPos
  | 31 => Op.enable
  | _ => 0

/-- The operations that await a frame (R139, R194). -/
def awaitsFrame (op : BitVec 4) : Bool := op == Op.queryId || op == Op.readPos || op == Op.rxFrame

/-- The range checks of R190 on an addressed operation: `ID = 0xFF` is BADID. -/
def checkId (id : Byte) : Option Code := if id = Config.rsvdId then some .badId else none

/-- SET_ID: a new id above 0xFD is BADID (R190). -/
def checkNewId (newId : Byte) : Option Code := if newId > Config.maxUnicastId then some .badId else none

/-- ENABLE: BADID before a mode above 1, which is BADARG (R190, R273). -/
def checkEnable (id mode : Byte) : Option Code :=
  if id = Config.rsvdId then some .badId else if mode > 1 then some .badArg else none

/-- TX_RAW: BADID before a length above 59, which is BADARG (R190, R273). -/
def checkRaw (id : Byte) (n : BitVec 6) : Option Code :=
  if id = Config.rsvdId then some .badId else if n.toNat > Config.maxTxPayload then some .badArg else none

/-- The host's write of a well-encoded request word (R252): dropped when busy, refused with the code the range checks give,
else accepted (R190 to R192). RX_FRAME sends nothing and goes to RXDIR, the others to TXDIR (R191). -/
def request (check : Option Code) (op : BitVec 4) (id : Byte) (a b : Half) (s : State) : State :=
  whenIdle
    (match check with
    | some c => requestError c
    | none => accept op id a b (if op = Op.rxFrame then .rxdir else .txdir))
    s

/-- Puts a request frame on the bus (R138): the accumulator holds the sum of its body, the engine goes to RXDIR. -/
def sendRequest (id cmd : Byte) (p : List Byte) (s : State) : State :=
  setEState .rxdir (setAcc (sum8 (frameBody id cmd p)) (tSend (encodeFrame id cmd p) s))

end Sys2Proof.Machine
end

