-- ==== Sys2Proof/Machine/Motion.lean ====
section
/-! DEFINITION. The motion operations: MOVE, MOVE_WAIT, START, STOP, ENABLE (43_command_dispatch R204 to R208). -/

namespace Sys2Proof.Machine

/-- MOVE (R204): BADID for id 0xFF. The position is clamped when the frame is built (R136). -/
def execMove (id : Byte) (position duration : Half) (s : State) : Host.Outcome State Fault Refusal :=
  .next (request (checkId id) Op.move id position duration s)

/-- MOVE_WAIT (R205): as MOVE. -/
def execMoveWait (id : Byte) (position duration : Half) (s : State) : Host.Outcome State Fault Refusal :=
  .next (request (checkId id) Op.moveWait id position duration s)

/-- START (R206). -/
def execStart (s : State) : Host.Outcome State Fault Refusal :=
  .next (request none Op.start 0 0 0 s)

/-- STOP (R207). -/
def execStop (s : State) : Host.Outcome State Fault Refusal :=
  .next (request none Op.stop 0 0 0 s)

/-- ENABLE (R208): BADID for id 0xFF, BADARG for a mode above 1. -/
def execEnable (id mode : Byte) (s : State) : Host.Outcome State Fault Refusal :=
  .next (request (checkEnable id mode) Op.enable id (packByte mode) 0 s)

end Sys2Proof.Machine
end

