-- ==== Sys2Proof/Machine/Query.lean ====
section
/-! DEFINITION. The identifier and position operations: QUERY_ID, SET_ID, READ_POS (43_command_dispatch R200 to R202). A
meaning is the host's write of the request word; the operation goes on by SBPF's steps (Engine.lean, R198). -/

namespace Sys2Proof.Machine

/-- QUERY_ID (R200, R190 to R192). -/
def execQueryId (s : State) : Host.Outcome State Fault Refusal :=
  .next (request none Op.queryId 0 0 0 s)

/-- SET_ID (R201): BADID for a new id above 0xFD. -/
def execSetId (newId : Byte) (s : State) : Host.Outcome State Fault Refusal :=
  .next (request (checkNewId newId) Op.setId 0 (packByte newId) 0 s)

/-- READ_POS (R202): BADID for id 0xFF. -/
def execReadPos (id : Byte) (s : State) : Host.Outcome State Fault Refusal :=
  .next (request (checkId id) Op.readPos id 0 0 s)

end Sys2Proof.Machine
end

