-- ==== Sys2Proof/Machine/Raw.lean ====
section
/-! DEFINITION. The raw operations: TX_RAW, RX_FRAME (43_command_dispatch R209, R210). -/

namespace Sys2Proof.Machine

/-- TX_RAW (R209): BADID for id 0xFF, BADARG for more than 59 payload bytes. -/
def execTxRaw (id command : Byte) (n : BitVec 6) (s : State) : Host.Outcome State Fault Refusal :=
  .next (request (checkRaw id n) Op.txRaw id (packRaw command n) 0 s)

/-- RX_FRAME (R210): goes straight to RXDIR. -/
def execRxFrame (s : State) : Host.Outcome State Fault Refusal :=
  .next (request none Op.rxFrame 0 0 0 s)

end Sys2Proof.Machine
end

