-- ==== Sys2Proof/Machine/Wire.lean ====
section
/-! DEFINITION. The wire commands (30_encoding R96, R97). Running one is the TXSEND step that sends its request frame, built
from the latched request as 41_frame_codec R136 and R138 say (entry 12). -/

namespace Sys2Proof.Machine

/-- MOVE_TIME_WRITE: `encode(RID, 1, [pos_lo, pos_hi, dur_lo, dur_hi])` (R136, R204). -/
def execMoveTimeWrite (s : State) : Host.Outcome State Fault Refusal :=
  .next (sendRequest s.rid Cmd.moveTimeWrite (movePayload s) s)

/-- MOVE_TIME_WAIT_WRITE: `encode(RID, 7, [pos_lo, pos_hi, dur_lo, dur_hi])` (R136, R205). -/
def execMoveTimeWaitWrite (s : State) : Host.Outcome State Fault Refusal :=
  .next (sendRequest s.rid Cmd.moveTimeWaitWrite (movePayload s) s)

/-- MOVE_START: `encode(0xFE, 11, [])` (R136, R206). -/
def execMoveStart (s : State) : Host.Outcome State Fault Refusal :=
  .next (sendRequest Config.bcast Cmd.moveStart [] s)

/-- MOVE_STOP: `encode(0xFE, 12, [])` (R136, R207). -/
def execMoveStop (s : State) : Host.Outcome State Fault Refusal :=
  .next (sendRequest Config.bcast Cmd.moveStop [] s)

/-- ID_WRITE: `encode(0xFE, 13, [new id])` (R136, R201). -/
def execIdWrite (s : State) : Host.Outcome State Fault Refusal :=
  .next (sendRequest Config.bcast Cmd.idWrite (bytePayload s) s)

/-- ID_READ: `encode(0xFE, 14, [])` (R136, R200). -/
def execIdRead (s : State) : Host.Outcome State Fault Refusal :=
  .next (sendRequest Config.bcast Cmd.idRead [] s)

/-- POS_READ: `encode(RID, 28, [])` (R136, R202). -/
def execPosRead (s : State) : Host.Outcome State Fault Refusal :=
  .next (sendRequest s.rid Cmd.posRead [] s)

/-- LOAD_UNLOAD_WRITE: `encode(RID, 31, [mode])` (R136, R208). -/
def execLoadUnloadWrite (s : State) : Host.Outcome State Fault Refusal :=
  .next (sendRequest s.rid Cmd.loadUnloadWrite (bytePayload s) s)

end Sys2Proof.Machine
end

