-- ==== Sys2Proof/Machine/Dispatch.lean ====
section
/-! DEFINITION. One arm per instruction. -/

namespace Sys2Proof.Machine

def exec (i : Instr) (s : State) : Host.Outcome State Fault Refusal :=
  match i with
  | .queryId => Sys2Proof.Machine.execQueryId s
  | .setId newId => Sys2Proof.Machine.execSetId newId s
  | .readPos id => Sys2Proof.Machine.execReadPos id s
  | .move id position duration => Sys2Proof.Machine.execMove id position duration s
  | .moveWait id position duration => Sys2Proof.Machine.execMoveWait id position duration s
  | .start => Sys2Proof.Machine.execStart s
  | .stop => Sys2Proof.Machine.execStop s
  | .enable id mode => Sys2Proof.Machine.execEnable id mode s
  | .txRaw id command n => Sys2Proof.Machine.execTxRaw id command n s
  | .rxFrame => Sys2Proof.Machine.execRxFrame s
  | .moveTimeWrite => Sys2Proof.Machine.execMoveTimeWrite s
  | .moveTimeWaitWrite => Sys2Proof.Machine.execMoveTimeWaitWrite s
  | .moveStart => Sys2Proof.Machine.execMoveStart s
  | .moveStop => Sys2Proof.Machine.execMoveStop s
  | .idWrite => Sys2Proof.Machine.execIdWrite s
  | .idRead => Sys2Proof.Machine.execIdRead s
  | .posRead => Sys2Proof.Machine.execPosRead s
  | .loadUnloadWrite => Sys2Proof.Machine.execLoadUnloadWrite s

end Sys2Proof.Machine
end

