-- ==== Sys2Proof/Machine/Flags.lean ====
section
/-! DEFINITION. STATUS and its encodings (10_state R34, 30_encoding R110, R111), the encodings of ESTATE, PSTATE, DIR and PFAIL
(R23, R24, R27, R31), and the `done` output (R272). -/

namespace Sys2Proof.Machine

/-- The encoding of ESTATE (R24). -/
def EState.bits : EState → BitVec 3
  | .idle => 0
  | .txdir => 1
  | .txsend => 2
  | .rxdir => 3
  | .arm => 4
  | .parse => 5
  | .filter => 6
  | .reserved => 7

/-- The encoding of PSTATE (R27). -/
def PState.bits : PState → BitVec 3
  | .seekSync1 => 0
  | .seekSync2 => 1
  | .readId => 2
  | .readLength => 3
  | .readBody => 4
  | .complete => 5
  | .failed => 6
  | .reserved => 7

/-- The encoding of DIR (R23). -/
def Dir.bits : Dir → BitVec 1
  | .receive => 0
  | .transmit => 1

/-- The encoding of PFAIL (R31). -/
def PFail.bits : PFail → BitVec 2
  | .none => 0
  | .timeout => 1
  | .checksum => 2
  | .length => 3

/-- The encoding of STATUS.CODE (R111). -/
def Code.bits : Code → BitVec 3
  | .ok => 0
  | .timeout => 1
  | .checksum => 2
  | .length => 3
  | .badOp => 4
  | .badId => 5
  | .badArg => 6

/-- The code of a parse failure's cause: the same number (R31, R111). -/
def PFail.code : PFail → Code
  | .none => .ok
  | .timeout => .timeout
  | .checksum => .checksum
  | .length => .length

/-- STATUS.BUSY: an operation is in flight (R34). -/
def busy (s : State) : Bool := s.estate != .idle

/-- The value read from STATUS: `{0, CODE, OVR, FAIL, DONE, BUSY}` (R110). -/
def statusWord (s : State) : Byte :=
  (0 : BitVec 1) ++ s.code.bits ++ BitVec.ofBool s.ovr ++ BitVec.ofBool s.fail ++ BitVec.ofBool s.done ++
    BitVec.ofBool (busy s)

/-- The level output `done` (R272). -/
def doneOutput (s : State) : Bool := s.done

end Sys2Proof.Machine
end

