-- ==== Sys2Proof/Machine/Parser.lean ====
section
/-! DEFINITION. The packet parser (42_packet_parser): the steps ARM and PARSE, and the transitions of the sync-byte detector, the
framer and the validator. -/

namespace Sys2Proof.Machine

/-- The parser's registers at the start of an attempt (R151). FB keeps its bytes. -/
def startAttempt (s : State) : State :=
  { s with
    first := false
    pstate := .seekSync1
    acc := 0
    cnt := 0
    flen := 0
    pfail := .none
    estate := .parse }

/-- Step ARM (R151) under either flush policy. -/
def armStep (p : FlushPolicy) (s : State) : State :=
  startAttempt (if p = .everyAttempt ∨ s.first = true then tFlush s else s)

/-- SEEK_SYNC1 on a byte (R153). -/
def onSeekSync1 (b : Byte) (s : State) : State :=
  if b = Config.sync then setPState .seekSync2 s else s

/-- SEEK_SYNC2 on a byte (R154). -/
def onSeekSync2 (b : Byte) (s : State) : State :=
  if b = Config.sync then setPState .readId s else setPState .seekSync1 s

/-- READ_ID on a byte: the first stored byte (R155; entry 15). -/
def onReadId (b : Byte) (s : State) : State :=
  { s with fb := Memory.write s.fb 0 b, cnt := 1, acc := s.acc + b, pstate := .readLength }

/-- `FB[1] <- b; CNT <- 2; ACC <- ACC +8 b; FLEN <- b` (R156; entry 15). -/
def storeLength (b : Byte) (s : State) : State :=
  { s with fb := Memory.write s.fb 1 b, cnt := 2, acc := s.acc + b, flen := b }

/-- READ_LENGTH on a byte: the second stored byte and the length check (R156). -/
def onReadLength (b : Byte) (s : State) : State :=
  if b.toNat < Config.minLen ∨ b.toNat > Config.maxRxLen then parseFail .length (storeLength b s)
  else setPState .readBody (storeLength b s)

/-- `FB[CNT] <- b; CNT <- CNT + 1; ACC <- ACC +8 b` (R157, R158). -/
def storeByte (b : Byte) (s : State) : State :=
  { s with fb := Memory.write s.fb s.cnt.toNat b, cnt := s.cnt + 1, acc := s.acc + b }

/-- READ_BODY on a byte: another byte of the body (R157), or its last one, which the validator tests (R158). No rule covers
a CNT past the end of the body or of FB (entry 14). A body whose length byte was changed on the way is tested like any other:
where its shorter reading sums to 0xFF it is COMPLETE, which R161's derived list of outcomes leaves out. DEDUCED, safe: entry 18. -/
def onReadBody (b : Byte) (s : State) : Host.Outcome State Fault Refusal :=
  if s.cnt.toNat ≥ Config.fbCap ∨ s.cnt.toNat > s.flen.toNat then .fault .bodyOverrun
  else if s.cnt.toNat + 1 < s.flen.toNat + 1 then .next (storeByte b s)
  else if s.acc + b = 0xFF then .next (setPState .complete (storeByte b s))
  else .next (parseFail .checksum (storeByte b s))

/-- `transition(PSTATE, b)` (R152): the transition table of 42_packet_parser section 3. -/
def onByte (b : Byte) (s : State) : Host.Outcome State Fault Refusal :=
  match s.pstate with
  | .seekSync1 => .next (onSeekSync1 b s)
  | .seekSync2 => .next (onSeekSync2 b s)
  | .readId => .next (onReadId b s)
  | .readLength => .next (onReadLength b s)
  | .readBody => onReadBody b s
  | .complete => .fault .parseAfterEnd
  | .failed => .fault .parseAfterEnd
  | .reserved => .fault .reservedPState

/-- The row for `Timeout`: ParseFail(TIMEOUT) in the five reading states (R160). -/
def onTimeout (s : State) : Host.Outcome State Fault Refusal :=
  match s.pstate with
  | .seekSync1 => .next (parseFail .timeout s)
  | .seekSync2 => .next (parseFail .timeout s)
  | .readId => .next (parseFail .timeout s)
  | .readLength => .next (parseFail .timeout s)
  | .readBody => .next (parseFail .timeout s)
  | .complete => .fault .parseAfterEnd
  | .failed => .fault .parseAfterEnd
  | .reserved => .fault .reservedPState

/-- What a PARSE step does after its transition (R152): COMPLETE goes to FILTER, FAILED ends the operation in the
same step (R170, R274). The byte a LENGTH or CHECKSUM failure stores is in FB before that, in the order written (R12), where R74 says in
an earlier step. DEDUCED, unsafe: entry 23. -/
def afterTransition (s : State) : State :=
  match s.pstate with
  | .complete => setEState .filter s
  | .failed => finishFail s.pfail.code s
  | .seekSync1 => s
  | .seekSync2 => s
  | .readId => s
  | .readLength => s
  | .readBody => s
  | .reserved => s

/-- Goes on with `f` after an outcome that is a next state. -/
def thenState (o : Host.Outcome State Fault Refusal) (f : State → State) : Host.Outcome State Fault Refusal :=
  match o with
  | .next s => .next (f s)
  | .fault r => .fault r
  | .refused r => .refused r

/-- Step PARSE (R152): one read, one transition. -/
def parseStep (s : State) : Host.Outcome State Fault Refusal :=
  thenState
    (match readResult s with
    | .byte b => onByte b (tRead s)
    | .timeout => onTimeout (tRead s))
    afterTransition

end Sys2Proof.Machine
end

