-- ==== Sys2Proof/Machine/Engine.lean ====
section
/-! DEFINITION. SBPF's own steps, one per ESTATE (10_state R24): TXDIR, TXSEND, RXDIR (41_frame_codec R137 to R139), ARM and PARSE
(Parser.lean), FILTER (43_command_dispatch R195). -/

namespace Sys2Proof.Machine

/-- Step TXDIR (R137). -/
def txdirStep (s : State) : State := setEState .txsend (turnLine .transmit s)

/-- TXSEND of TX_RAW (R136, R138): the host's command byte and payload. `encode` has no meaning for more than 59 bytes (R133). -/
def sendRaw (s : State) : Host.Outcome State Fault Refusal :=
  if (argCount s.ra).toNat > Config.maxTxPayload then .fault .oversizePayload
  else .next (sendRequest s.rid (argByte s.ra) (txplTake (argCount s.ra).toNat s) s)

/-- Runs the wire command a byte stands for; a byte that is no row of the table names no frame. -/
def runCommand (c : Byte) (s : State) : Host.Outcome State Fault Refusal :=
  match decodeCmd c with
  | .ok i => exec i s
  | .error _ => .fault .noFrame

/-- Step TXSEND (R138): the frame of `txframe()` (R136). The operation fixes the wire command, which is decoded and run;
TX_RAW sends the host's. -/
def txsendStep (s : State) : Host.Outcome State Fault Refusal :=
  if s.opr = Op.txRaw then sendRaw s
  else
    match commandOf s.opr with
    | some c => runCommand c s
    | none => .fault .noFrame

/-- Step RXDIR (R139): receive, or complete an operation that awaits nothing. -/
def rxdirStep (s : State) : State :=
  if awaitsFrame s.opr then setEState .arm (turnLine .receive s) else finishOk 0 (turnLine .receive s)

/-- `if m then finish_ok(v) else ESTATE <- ARM` (R195). -/
def matchOrRearm (m : Bool) (v : Half) (s : State) : State :=
  if m then finishOk v s else setEState .arm s

/-- Step FILTER (R195). `plen = FLEN - 3`, so `plen != 0` is `FLEN != 3` and `plen == 2` is `FLEN == 5` (R10, R200, R202). -/
def filterStep (s : State) : Host.Outcome State Fault Refusal :=
  if s.opr = Op.queryId then
    .next (matchOrRearm (fbRead s 2 == Cmd.idRead && fbRead s 0 != Config.bcast && s.flen != 3) (zext16 (fbRead s 0)) s)
  else if s.opr = Op.readPos then
    .next (matchOrRearm (fbRead s 2 == Cmd.posRead && s.flen == 5) (le16 (fbRead s 3) (fbRead s 4)) s)
  else if s.opr = Op.rxFrame then
    .next (matchOrRearm true (fbRead s 2 ++ fbRead s 0) s)
  else .fault .noFilterCase

/-- The step ESTATE selects (R24). In IDLE SBPF takes none. -/
def engineStep (p : FlushPolicy) (s : State) : Host.Outcome State Fault Refusal :=
  match s.estate with
  | .idle => .next s
  | .txdir => .next (txdirStep s)
  | .txsend => txsendStep s
  | .rxdir => .next (rxdirStep s)
  | .arm => .next (armStep p s)
  | .parse => parseStep s
  | .filter => filterStep s
  | .reserved => .fault .reservedEState

/-- What SBPF does on its turn: nothing while reset is asserted (R310), else the step ESTATE selects (R24), unless PSTATE is
reserved: any step SBPF takes from there faults, and ESTATE 7 faults of itself (R42; entry 14). -/
def sbpfStep (p : FlushPolicy) (s : State) : Host.Outcome State Fault Refusal :=
  if s.rst then .next s
  else if s.pstate = .reserved ∧ s.estate ≠ .idle ∧ s.estate ≠ .reserved then .fault .reservedPState
  else engineStep p s

end Sys2Proof.Machine
end

