-- ==== Sys2Proof/Machine/HostPort.lean ====
section
/-! DEFINITION. The host register space (20_memory R60 to R64) and the host's accesses to it (44_host_access R250 to R256). -/

namespace Sys2Proof.Machine

/-- The value at an index (R60): STATUS, RESULT, FB; a write-only register and a reserved index read 0 (R64, R256). -/
def hostValue (s : State) (idx : BitVec 8) : Half :=
  if idx.toNat = 0x00 then zext16 (statusWord s)
  else if idx.toNat = 0x01 then s.result
  else if 0x80 ≤ idx.toNat ∧ idx.toNat < 0x80 + Config.fbCap then zext16 (fbRead s (idx.toNat - 0x80))
  else 0

/-- The code of a request word the decoder rejects (R107, R190). -/
def decodeErrorCode : DecodeError → Code
  | .badOp => .badOp
  | .reservedField => .badArg
  | .unlistedCommand => .badOp

/-- A write of REQ (R252): an instruction runs; a word that is none is a request error when idle, and dropped when busy. -/
def writeReq (w : ReqWord) (s : State) : Host.Outcome State Fault Refusal :=
  match decodeReq w with
  | .ok i => exec i s
  | .error e => .next (whenIdle (requestError (decodeErrorCode e)) s)

/-- `MemWrite(HOST, idx, n, v)` (R61): the low bits of `v` go to the register at `idx`. TXPL takes a byte when idle (R254);
read-only registers and reserved indices ignore it (R64, R256). -/
def hostWrite (idx : BitVec 8) (v : Nat) (s : State) : Host.Outcome State Fault Refusal :=
  if idx.toNat = 0x02 then writeReq (BitVec.ofNat 48 v) s
  else if 0x40 ≤ idx.toNat ∧ idx.toNat < 0x40 + Config.maxTxPayload then
    .next (if s.estate = .idle then txplWrite (idx.toNat - 0x40) (BitVec.ofNat 8 v) s else s)
  else .next s

/-- A host access (R250 to R256), ignored while reset is asserted (R310). The access width selects nothing (R61; entry 9). -/
def hostAccess (a : HostAccess) (s : State) : Host.Outcome State Fault Refusal :=
  if s.rst then .next s
  else
    match a with
    | .read idx _ => .next { s with rdata := hostValue s idx }
    | .write idx _ v => hostWrite idx v s

end Sys2Proof.Machine
end

