-- ==== Sys2Proof/Machine/Turns.lean ====
section
/-! DEFINITION. One turn: the agent that moves next, as the schedule says (00_scope R8, 20_memory R69; entry 1), and how an
instruction's word is put where the next step fetches it (entry 20). -/

namespace Sys2Proof.Machine

/-- One turn under a flush policy: the next one listed, or SBPF's own when none is. -/
def stepUnder (p : FlushPolicy) (s : State) : Host.Outcome State Fault Refusal :=
  match s.schedule with
  | [] => sbpfStep p s
  | .sbpf :: rest => sbpfStep p { s with schedule := rest }
  | .host a :: rest => hostAccess a { s with schedule := rest }
  | .resetInput level :: rest => .next (driveReset level { s with schedule := rest })

/-- Puts a word where the next step fetches it: a request word as the host's next write of REQ; a command byte as the
command of the operation in flight, at its TXSEND step, which a reserved PSTATE would make a fault (R42). -/
def placeWord (c : CodeWord) (s : State) : State :=
  match c with
  | .request w => { s with schedule := .host (.write 0x02 6 w.toNat) :: s.schedule, rst := false }
  | .command c =>
    { s with
      estate := .txsend
      dir := .transmit
      opr := operationOf c
      pstate := if s.pstate = .reserved then .seekSync1 else s.pstate
      schedule := .sbpf :: s.schedule
      rst := false }

end Sys2Proof.Machine
end

