-- ==== Sys2Proof/Machine/Step.lean ====
section
/-! DEFINITION. One step of the machine, SBPF-v7's flush policy (00_scope R9), and the word the next step fetches. -/

namespace Sys2Proof.Machine

/-- One step: one turn of SBPF, the host or the reset input. -/
def step (s : State) : Host.Outcome State Fault Refusal := stepUnder Config.flushPolicy s

/-- `s` with an instruction's word where the next step fetches it (entry 20). -/
def State.withFetchWord (s : State) (nbits w : Nat) : State := placeWord (tableWord nbits w) s

end Sys2Proof.Machine
end

