-- ==== Sys2Proof/WellFormed.lean ====
section
/-! DEFINITION. Which operands the spec admits (30_encoding R106, the ranges 43_command_dispatch R190 checks). -/

namespace Sys2Proof

/-- An identifier an addressed operation accepts: 0x00..0xFE (R106, R190). -/
def addressableId (id : Byte) : Bool := id != Config.rsvdId

/-- The operands lie in the ranges of R106; every other request is refused by R190. -/
def Instr.wellFormed : Instr → Bool
  | .queryId => true
  | .setId newId => decide (newId ≤ Config.maxUnicastId)
  | .readPos id => addressableId id
  | .move id _ _ => addressableId id
  | .moveWait id _ _ => addressableId id
  | .start => true
  | .stop => true
  | .enable id mode => addressableId id && decide (mode ≤ 1)
  | .txRaw id _ n => addressableId id && decide (n.toNat ≤ Config.maxTxPayload)
  | .rxFrame => true
  | .moveTimeWrite => true
  | .moveTimeWaitWrite => true
  | .moveStart => true
  | .moveStop => true
  | .idWrite => true
  | .idRead => true
  | .posRead => true
  | .loadUnloadWrite => true

end Sys2Proof
end

