-- ==== Sys2Proof/Safety.lean ====
section
/-! DEFINITION. The invariant of the machine, in the terms the statements use: 10_state R40, the legal combinations of STATUS (R34),
the reserved states (R42), the parser's bookkeeping (R29 to R31, R161) and the legality of the request in flight (R190). -/

namespace Sys2Proof.Machine

/-- The latched request is one R190 accepts: its word decodes to an instruction with operands in range. -/
def latchedLegal (s : State) : Prop :=
  ∃ i, decodeReq (packReq s.opr s.rid s.ra s.rb) = .ok i ∧ i.wellFormed = true

/-- What every state of a run meets. The statements over all states take it as a premise where they need it. -/
structure Inv (s : State) : Prop where
  /-- FB is in canonical form and inside its 64 bytes (R32). -/
  fbForm : Memory.wf Config.fbCap s.fb
  /-- TXPL is in canonical form and inside its 59 bytes (R33). -/
  txplForm : Memory.wf Config.maxTxPayload s.txpl
  /-- ESTATE is not 7 (R42). -/
  engineState : s.estate ≠ .reserved
  /-- PSTATE is not 7 (R42). -/
  parserState : s.pstate ≠ .reserved
  /-- PARSE is left in the step that ends the attempt (R152). -/
  parsing : s.estate = .parse → s.pstate ≠ .complete ∧ s.pstate ≠ .failed
  /-- R40 (5). -/
  filtering : s.estate = .filter → s.pstate = .complete
  /-- R40 (4), first half. -/
  receiving : s.estate ≠ .txsend → s.estate ≠ .rxdir → s.dir = .receive
  /-- R40 (4), second half. -/
  transmitting : s.estate = .txsend → s.dir = .transmit
  /-- R34, R36: while busy DONE, FAIL and CODE are 0 and RESULT reads 0. -/
  busyStatus : s.estate ≠ .idle → s.done = false ∧ s.fail = false ∧ s.code = .ok ∧ s.result = 0
  /-- R34: FAIL iff DONE and a code other than 0. -/
  failStatus : s.fail = true ↔ s.done = true ∧ s.code ≠ .ok
  /-- R112: a failure leaves the sentinel in RESULT. -/
  failResult : s.fail = true → s.result = Config.failSentinel
  /-- R25, R190: the request in flight was accepted. -/
  latched : s.estate ≠ .idle → latchedLegal s
  /-- R198: RX_FRAME sends nothing. -/
  sending : s.estate = .txdir ∨ s.estate = .txsend → s.opr ≠ Op.rxFrame
  /-- R194: only these operations receive. -/
  awaiting : s.estate = .arm ∨ s.estate = .parse ∨ s.estate = .filter → awaitsFrame s.opr = true
  /-- R40 (1), R171. -/
  cntBound : s.cnt.toNat ≤ Config.fbCap
  /-- Nothing stored before READ_ID (R151, R153, R154). -/
  cntSeeking : s.pstate = .seekSync1 ∨ s.pstate = .seekSync2 ∨ s.pstate = .readId → s.cnt = 0
  /-- One byte stored before READ_LENGTH (R155). -/
  cntLength : s.pstate = .readLength → s.cnt = 1
  /-- R40 (1) in READ_BODY. -/
  cntBody : s.pstate = .readBody →
    Config.minLen ≤ s.flen.toNat ∧ s.flen.toNat ≤ Config.maxRxLen ∧ 2 ≤ s.cnt.toNat ∧ s.cnt.toNat ≤ s.flen.toNat
  /-- R40 (1) at the end of a body: all of it stored. -/
  cntEnded : s.pstate = .complete ∨ (s.pstate = .failed ∧ s.pfail = .checksum) →
    Config.minLen ≤ s.flen.toNat ∧ s.flen.toNat ≤ Config.maxRxLen ∧ s.cnt.toNat = s.flen.toNat + 1
  /-- R31: PFAIL names a cause exactly in FAILED. -/
  cause : s.pstate = .failed ↔ s.pfail ≠ .none
  /-- R40 (2). -/
  sumHeld : s.estate = .parse ∨ s.estate = .filter → s.acc = sum8 (fbTake s.cnt.toNat s)
  /-- R40 (3). -/
  frameValid : s.pstate = .complete → sum8 (fbTake s.cnt.toNat s) = 0xFF
  /-- R161: FB[1] is the length byte. -/
  lengthHeld : s.pstate = .readBody ∨ s.pstate = .complete → fbRead s 1 = s.flen

end Sys2Proof.Machine
end

