-- ==== Sys2Proof/Certificates/Slice0/Obligations.lean ====
section
/-! DEFINITION. The statements for the provers. The helpers under `SpecText` spell out what a rule of the spec writes, in
numbers of their own where the model computes with bit fields. -/

open Sys2Proof Sys2Proof.Machine

/-! What the rules write. -/

/-- `accept(op, id, a, b)` going to engine state `e` (R191). -/
def SpecText.accepted (s : State) (op : BitVec 4) (id : Byte) (a b : Half) (e : EState) : State :=
  { s with opr := op, rid := id, ra := a, rb := b, first := true, done := false, fail := false, ovr := false, code := .ok, result := 0, estate := e }

/-- `raise RequestError(c)` (R192). -/
def SpecText.refused (s : State) (c : Code) : State :=
  { s with done := true, fail := true, ovr := false, code := c, result := Config.failSentinel }

/-- `finish_ok(v)` (R196). -/
def SpecText.finished (s : State) (v : Half) : State :=
  { s with result := v, done := true, fail := false, code := .ok, estate := .idle }

/-- `raise ParseFail(c)` and the `finish_fail` it leads to in the same step (R170, R197, R274). -/
def SpecText.parseFailed (s : State) (f : PFail) (c : Code) : State :=
  { s with pfail := f, pstate := .failed, result := Config.failSentinel, done := true, fail := true, code := c, estate := .idle }

/-- The sum of bytes as numbers. -/
def SpecText.total (p : List Byte) : Nat := (p.map BitVec.toNat).sum

/-- The TXSEND step for a frame with these body bytes, id through the last payload byte (R132, R138). -/
def SpecText.sent (s : State) (body : List Byte) : State :=
  { s with
    acc := BitVec.ofNat 8 (SpecText.total body)
    busLog := .send (0x55 :: 0x55 :: body ++ [BitVec.ofNat 8 (255 - SpecText.total body % 256)]) :: s.busLog
    estate := .rxdir }

/-- The low and the high byte of a 16-bit value, as numbers (R135). -/
def SpecText.lo (v : Half) : Byte := BitVec.ofNat 8 (v.toNat % 256)
def SpecText.hi (v : Half) : Byte := BitVec.ofNat 8 (v.toNat / 256)

/-- `clamp_pos(a)` as R212 writes it. -/
def SpecText.clamped (a : Half) : Half :=
  if a.toInt < 125 then 125 else if a.toInt > 875 then 875 else a

/-- `reserved_nonzero(op, id, a, b)` of R190, on numbers. -/
def SpecText.reservedNonzero (op id a b : Nat) : Bool :=
  if op = 1 ∨ op = 6 ∨ op = 7 ∨ op = 10 then decide (id ≠ 0 ∨ a ≠ 0 ∨ b ≠ 0)
  else if op = 2 then decide (id ≠ 0 ∨ a / 256 ≠ 0 ∨ b ≠ 0)
  else if op = 3 then decide (a ≠ 0 ∨ b ≠ 0)
  else if op = 8 then decide (a / 256 ≠ 0 ∨ b ≠ 0)
  else if op = 9 then decide (a / 16384 ≠ 0 ∨ b ≠ 0)
  else false

/-- The checks of R190 in its order, on the word as a number: the code of the first that applies. -/
def SpecText.requestCheck (w : Nat) : Option Code :=
  let op := w % 16
  let rsv := w / 16 % 16
  let id := w / 256 % 256
  let a := w / 65536 % 65536
  let b := w / 4294967296 % 65536
  if op = 0 ∨ op > 10 then some .badOp
  else if rsv ≠ 0 ∨ SpecText.reservedNonzero op id a b = true then some .badArg
  else if (op = 3 ∨ op = 4 ∨ op = 5 ∨ op = 8 ∨ op = 9) ∧ id = 255 then some .badId
  else if op = 2 ∧ a % 256 > 253 then some .badId
  else if op = 8 ∧ a % 256 > 1 then some .badArg
  else if op = 9 ∧ a / 256 % 64 > 59 then some .badArg
  else none

/-- The ten request operations: the rows of format REQ. -/
def SpecText.isRequest : Instr → Bool
  | .queryId | .setId _ | .readPos _ | .move _ _ _ | .moveWait _ _ _ | .start | .stop | .enable _ _ | .txRaw _ _ _ | .rxFrame => true
  | .moveTimeWrite | .moveTimeWaitWrite | .moveStart | .moveStop | .idWrite | .idRead | .posRead | .loadUnloadWrite => false

/-- The frame an operation that awaits no response puts on the bus (R136), for the operations R198 lists in its first row. -/
def SpecText.frameOf (s : State) : Instr → Option (List Byte)
  | .setId newId => some (encodeFrame 0xFE 13 [newId])
  | .move id position duration => some (encodeFrame id 1 [SpecText.lo (SpecText.clamped position), SpecText.hi (SpecText.clamped position), SpecText.lo duration, SpecText.hi duration])
  | .moveWait id position duration => some (encodeFrame id 7 [SpecText.lo (SpecText.clamped position), SpecText.hi (SpecText.clamped position), SpecText.lo duration, SpecText.hi duration])
  | .start => some (encodeFrame 0xFE 11 [])
  | .stop => some (encodeFrame 0xFE 12 [])
  | .enable id mode => some (encodeFrame id 31 [mode])
  | .txRaw id command n => some (encodeFrame id command ((List.range n.toNat).map (txplRead s)))
  | .queryId | .readPos _ | .rxFrame => none
  | .moveTimeWrite | .moveTimeWaitWrite | .moveStart | .moveStop | .idWrite | .idRead | .posRead | .loadUnloadWrite => none

/-- A stream that delivers these bytes. -/
def SpecText.bytes (p : List Byte) : List ReadResult := p.map .byte

/-! Encodings. -/

/-- Words written out from the layout of R104 and the codes of R105 and R96 read as the instructions they stand for. -/
def Obligations.WordsDecodeToTheirInstructions : Prop :=
  decodeTableWord 48 0x000000000001 = some .queryId ∧
  decodeTableWord 48 0x000000050002 = some (.setId 5) ∧
  decodeTableWord 48 0x00000000FE03 = some (.readPos 0xFE) ∧
  decodeTableWord 48 0x01F403E80104 = some (.move 1 1000 500) ∧
  decodeTableWord 48 0x03E801F40205 = some (.moveWait 2 500 1000) ∧
  decodeTableWord 48 0x000000010108 = some (.enable 1 1) ∧
  decodeTableWord 48 0x00003B421009 = some (.txRaw 0x10 0x42 59) ∧
  decodeTableWord 48 0x00000000000A = some .rxFrame ∧
  decodeTableWord 48 0x00000000000B = none ∧
  decodeTableWord 48 0x000000000013 = none ∧
  decodeTableWord 8 0x1C = some .posRead ∧
  decodeTableWord 8 0x0D = some .idWrite ∧
  decodeTableWord 8 0x02 = none

/-- Decode and encode agree, for every instruction and in both directions: no bit of an encoding is dropped, and no two words
mean the same instruction (R104 to R107, R96). -/
def Obligations.DecodeAndEncodeAgree : Prop :=
  (∀ i, i.wellFormed = true → decode (encode i) = .ok i) ∧ ∀ c i, decode c = .ok i → encode i = c

/-- The host's write of REQ is checked as R190 says, in its order: in IDLE the word is accepted (R191) or refused with the first
code that applies (R192, R211); while busy it is dropped, and only OVR is set (R252). -/
def Obligations.RequestWordsAreCheckedInOrder : Prop :=
  ∀ (s : State) (n v : Nat) (rest : List Turn), s.rst = false → s.schedule = .host (.write 0x02 n v) :: rest →
    (s.estate = .idle →
      step s = .next
        (match SpecText.requestCheck v with
        | some c => SpecText.refused { s with schedule := rest } c
        | none =>
          SpecText.accepted { s with schedule := rest } (BitVec.ofNat 4 (v % 16)) (BitVec.ofNat 8 (v / 256))
            (BitVec.ofNat 16 (v / 65536)) (BitVec.ofNat 16 (v / 4294967296)) (if v % 16 = 10 then .rxdir else .txdir))) ∧
    (s.estate ≠ .idle → step s = .next { s with schedule := rest, ovr := true })

/-! Instructions: where they complete, and what they leave alone. -/

/-- QUERY_ID, SET_ID, READ_POS: in IDLE, with an identifier in range (R106), the request is accepted (R191). -/
def Obligations.QueryOperationsAreAccepted : Prop :=
  ∀ s : State, s.estate = .idle →
    exec .queryId s = .next (SpecText.accepted s 1 0 0 0 .txdir) ∧
    (∀ newId : Byte, newId.toNat ≤ 253 →
      exec (.setId newId) s = .next (SpecText.accepted s 2 0 (BitVec.ofNat 16 newId.toNat) 0 .txdir)) ∧
    (∀ id : Byte, id.toNat ≤ 254 → exec (.readPos id) s = .next (SpecText.accepted s 3 id 0 0 .txdir))

/-- MOVE, MOVE_WAIT, START, STOP, ENABLE: in IDLE, with operands in range (R106), the request is accepted (R191). -/
def Obligations.MotionOperationsAreAccepted : Prop :=
  ∀ s : State, s.estate = .idle →
    (∀ (id : Byte) (position duration : Half), id.toNat ≤ 254 →
      exec (.move id position duration) s = .next (SpecText.accepted s 4 id position duration .txdir) ∧
      exec (.moveWait id position duration) s = .next (SpecText.accepted s 5 id position duration .txdir)) ∧
    exec .start s = .next (SpecText.accepted s 6 0 0 0 .txdir) ∧
    exec .stop s = .next (SpecText.accepted s 7 0 0 0 .txdir) ∧
    (∀ id mode : Byte, id.toNat ≤ 254 → mode.toNat ≤ 1 →
      exec (.enable id mode) s = .next (SpecText.accepted s 8 id (BitVec.ofNat 16 mode.toNat) 0 .txdir))

/-- TX_RAW, RX_FRAME: in IDLE, with operands in range (R106), the request is accepted (R191). RX_FRAME goes to RXDIR. -/
def Obligations.RawOperationsAreAccepted : Prop :=
  ∀ s : State, s.estate = .idle →
    (∀ (id command : Byte) (n : BitVec 6), id.toNat ≤ 254 → n.toNat ≤ 59 →
      exec (.txRaw id command n) s =
        .next (SpecText.accepted s 9 id (BitVec.ofNat 16 (256 * n.toNat + command.toNat)) 0 .txdir)) ∧
    exec .rxFrame s = .next (SpecText.accepted s 10 0 0 0 .rxdir)

/-- In IDLE an operand out of its range refuses the request, BADID before BADARG (R190, R192, R273). -/
def Obligations.OperandsOutOfRangeAreRefused : Prop :=
  ∀ s : State, s.estate = .idle →
    (∀ newId : Byte, newId.toNat > 253 → exec (.setId newId) s = .next (SpecText.refused s .badId)) ∧
    exec (.readPos 0xFF) s = .next (SpecText.refused s .badId) ∧
    (∀ position duration : Half, exec (.move 0xFF position duration) s = .next (SpecText.refused s .badId) ∧
      exec (.moveWait 0xFF position duration) s = .next (SpecText.refused s .badId)) ∧
    (∀ mode : Byte, exec (.enable 0xFF mode) s = .next (SpecText.refused s .badId)) ∧
    (∀ id mode : Byte, id.toNat ≤ 254 → mode.toNat > 1 → exec (.enable id mode) s = .next (SpecText.refused s .badArg)) ∧
    (∀ (command : Byte) (n : BitVec 6), exec (.txRaw 0xFF command n) s = .next (SpecText.refused s .badId)) ∧
    (∀ (id command : Byte) (n : BitVec 6), id.toNat ≤ 254 → n.toNat > 59 →
      exec (.txRaw id command n) s = .next (SpecText.refused s .badArg))

/-- While busy every request instruction is dropped: OVR is set and nothing else changes (R252). -/
def Obligations.RequestsWhileBusyAreDropped : Prop :=
  ∀ (i : Instr) (s : State), SpecText.isRequest i = true → s.estate ≠ .idle → exec i s = .next { s with ovr := true }

/-- The frame of a request instruction: only the latched request, STATUS, RESULT and ESTATE may change, and the latched
request and FIRST only when it is accepted. No byte of FB or TXPL changes and no transport call is made (R191, R192, R252). -/
def Obligations.RequestInstructionsFrame : Prop :=
  ∀ (i : Instr) (s t : State), SpecText.isRequest i = true → exec i s = .next t →
    (t.dir = s.dir ∧ t.pstate = s.pstate ∧ t.acc = s.acc ∧ t.cnt = s.cnt ∧ t.flen = s.flen ∧ t.pfail = s.pfail) ∧
    (t.rst = s.rst ∧ t.rxStream = s.rxStream ∧ t.flushDraws = s.flushDraws ∧ t.readCount = s.readCount ∧
      t.flushCount = s.flushCount ∧ t.resets = s.resets ∧ t.busLog = s.busLog ∧ t.rdata = s.rdata ∧ t.schedule = s.schedule) ∧
    (∀ a, fbRead t a = fbRead s a ∧ txplRead t a = txplRead s a) ∧ t.fb = s.fb ∧ t.txpl = s.txpl ∧
    (¬ (s.estate = .idle ∧ i.wellFormed = true) →
      t.estate = s.estate ∧ t.opr = s.opr ∧ t.rid = s.rid ∧ t.ra = s.ra ∧ t.rb = s.rb ∧ t.first = s.first)

/-- Each wire command sends its request frame, built from the latched request (R96, R97, R136, R138). The order of a move's payload
is the spec's general knowledge (entry 16), and what a wire command is on its own is the model's choice (entry 12). -/
def Obligations.WireCommandsSendTheirFrames : Prop :=
  ∀ s : State,
    exec .moveTimeWrite s = .next (SpecText.sent s
      [s.rid, 7, 1, SpecText.lo (SpecText.clamped s.ra), SpecText.hi (SpecText.clamped s.ra), SpecText.lo s.rb, SpecText.hi s.rb]) ∧
    exec .moveTimeWaitWrite s = .next (SpecText.sent s
      [s.rid, 7, 7, SpecText.lo (SpecText.clamped s.ra), SpecText.hi (SpecText.clamped s.ra), SpecText.lo s.rb, SpecText.hi s.rb]) ∧
    exec .moveStart s = .next (SpecText.sent s [0xFE, 3, 11]) ∧
    exec .moveStop s = .next (SpecText.sent s [0xFE, 3, 12]) ∧
    exec .idWrite s = .next (SpecText.sent s [0xFE, 4, 13, SpecText.lo s.ra]) ∧
    exec .idRead s = .next (SpecText.sent s [0xFE, 3, 14]) ∧
    exec .posRead s = .next (SpecText.sent s [s.rid, 3, 28]) ∧
    exec .loadUnloadWrite s = .next (SpecText.sent s [s.rid, 4, 31, SpecText.lo s.ra])

/-- The frame of a wire command: only ACC, the record of transport calls and ESTATE change (R138). What a wire command is on its
own, and outside TXSEND at all, is the model's choice (entry 12). -/
def Obligations.WireCommandsFrame : Prop :=
  ∀ (i : Instr) (s t : State), SpecText.isRequest i = false → exec i s = .next t →
    (∀ a, fbRead t a = fbRead s a ∧ txplRead t a = txplRead s a) ∧ t.estate = .rxdir ∧
    ∃ f, t = { s with acc := t.acc, busLog := .send f :: s.busLog, estate := .rxdir }

/-! A step runs the decoded instruction. -/

/-- When the host's turn is a write of REQ and its word decodes to `i`, the step is `exec i` on the state whose schedule has
moved past that turn. -/
def Obligations.StepRunsTheRequestWritten : Prop :=
  ∀ (s : State) (n v : Nat) (rest : List Turn) (i : Instr), s.rst = false →
    s.schedule = .host (.write 0x02 n v) :: rest → decodeReq (BitVec.ofNat 48 v) = .ok i →
    step s = exec i { s with schedule := rest }

/-- When SBPF has the turn in TXSEND and its operation's command byte decodes to `i`, the step is `exec i` on the state whose
schedule has moved past that turn, if it was listed (R24, R136, R138). That TXSEND decodes a command byte and runs it as an
instruction is the model's choice (entry 12), and so are turns as plain data (entry 1). With PSTATE reserved the step faults
(ReservedStatesFault). -/
def Obligations.StepRunsTheCommandSent : Prop :=
  ∀ (s : State) (rest : List Turn) (c : Byte) (i : Instr), s.rst = false → s.estate = .txsend → s.pstate ≠ .reserved →
    (s.schedule = .sbpf :: rest ∨ (s.schedule = [] ∧ rest = [])) →
    commandOf s.opr = some c → decodeCmd c = .ok i → step s = exec i { s with schedule := rest }

/-- A word placed where the next step fetches it is run by that step (the model's own device, entry 20): a request word as the
host's write of REQ, a command byte in TXSEND with the operation that sends it in flight. -/
def Obligations.PlacedWordIsRunNext : Prop :=
  ∀ (s : State) (nbits w : Nat) (i : Instr), decodeTableWord nbits w = some i →
    step (s.withFetchWord nbits w) =
      exec i
        (if nbits ≤ 8 then
          { s with
            estate := .txsend, dir := .transmit, opr := operationOf (BitVec.ofNat 8 w), rst := false
            pstate := if s.pstate = .reserved then .seekSync1 else s.pstate }
        else { s with rst := false })

/-! Frame codec. -/

/-- `csum(p) = 255 - (sum mod 256)`, with its corner cases (R130). -/
def Obligations.ChecksumIsTheComplementOfTheSum : Prop :=
  (∀ p, (csum p).toNat = 255 - SpecText.total p % 256) ∧ csum [] = 0xFF ∧
  (∀ p, SpecText.total p % 256 = 0 → csum p = 0xFF) ∧ (∀ p, SpecText.total p % 256 = 255 → csum p = 0x00) ∧
  csum [0x01, 0x03, 0x1C] = 0xDF

/-- Every checksummed list sums to 0xFF, so every encoded frame has a valid body, and changing any one byte of a valid body
makes it invalid (R131). -/
def Obligations.ChecksumLaw : Prop :=
  (∀ p, sum8 (p ++ [csum p]) = 0xFF) ∧ (∀ id cmd p, sum8 ((encodeFrame id cmd p).drop 2) = 0xFF) ∧
  ∀ (body : List Byte) (k : Nat) (b : Byte) (h : k < body.length), sum8 body = 0xFF → body[k] ≠ b → sum8 (body.set k b) ≠ 0xFF

/-- The frame `encode` builds: its bytes in order and their number (R132). -/
def Obligations.EncodedFrameLayout : Prop :=
  ∀ (id cmd : Byte) (p : List Byte), p.length ≤ 59 →
    encodeFrame id cmd p =
      [0x55, 0x55] ++ ([id, BitVec.ofNat 8 (3 + p.length), cmd] ++ p) ++ [csum ([id, BitVec.ofNat 8 (3 + p.length), cmd] ++ p)] ∧
    (encodeFrame id cmd p).length = p.length + 6

/-- `clamp_pos` (R212): the three cases, and the range a move can send. -/
def Obligations.ClampedPosition : Prop :=
  ∀ a : Half,
    (a.toInt < 125 → clampPos a = 125) ∧ (a.toInt > 875 → clampPos a = 875) ∧
    (125 ≤ a.toInt → a.toInt ≤ 875 → clampPos a = a) ∧ 125 ≤ (clampPos a).toInt ∧ (clampPos a).toInt ≤ 875

/-! SBPF's steps. A reserved PSTATE makes each of them a fault (ReservedStatesFault). -/

/-- Step TXDIR (R137). -/
def Obligations.TxdirStep : Prop :=
  ∀ (p : FlushPolicy) (s : State), s.rst = false → s.pstate ≠ .reserved → s.estate = .txdir →
    sbpfStep p s = .next { s with busLog := .setDir .transmit :: s.busLog, dir := .transmit, estate := .txsend }

/-- Step TXSEND (R138) puts `txframe()` (R136) on the bus, for every operation that sends. The order of a move's payload is the
spec's general knowledge (entry 16). -/
def Obligations.TxsendStepSendsTheRequestFrame : Prop :=
  ∀ (p : FlushPolicy) (s : State), s.rst = false → s.pstate ≠ .reserved → s.estate = .txsend →
    (s.opr = 1 → sbpfStep p s = .next (SpecText.sent s [0xFE, 3, 14])) ∧
    (s.opr = 2 → sbpfStep p s = .next (SpecText.sent s [0xFE, 4, 13, SpecText.lo s.ra])) ∧
    (s.opr = 3 → sbpfStep p s = .next (SpecText.sent s [s.rid, 3, 28])) ∧
    (s.opr = 4 → sbpfStep p s = .next (SpecText.sent s
      [s.rid, 7, 1, SpecText.lo (SpecText.clamped s.ra), SpecText.hi (SpecText.clamped s.ra), SpecText.lo s.rb, SpecText.hi s.rb])) ∧
    (s.opr = 5 → sbpfStep p s = .next (SpecText.sent s
      [s.rid, 7, 7, SpecText.lo (SpecText.clamped s.ra), SpecText.hi (SpecText.clamped s.ra), SpecText.lo s.rb, SpecText.hi s.rb])) ∧
    (s.opr = 6 → sbpfStep p s = .next (SpecText.sent s [0xFE, 3, 11])) ∧
    (s.opr = 7 → sbpfStep p s = .next (SpecText.sent s [0xFE, 3, 12])) ∧
    (s.opr = 8 → sbpfStep p s = .next (SpecText.sent s [s.rid, 4, 31, SpecText.lo s.ra])) ∧
    (s.opr = 9 → s.ra.toNat / 256 % 64 ≤ 59 →
      sbpfStep p s = .next (SpecText.sent s
        ([s.rid, BitVec.ofNat 8 (3 + s.ra.toNat / 256 % 64), SpecText.lo s.ra] ++
          (List.range (s.ra.toNat / 256 % 64)).map (txplRead s))))

/-- Step RXDIR (R139): QUERY_ID, READ_POS and RX_FRAME go on to receive, every other operation completes. -/
def Obligations.RxdirStep : Prop :=
  ∀ (p : FlushPolicy) (s : State), s.rst = false → s.pstate ≠ .reserved → s.estate = .rxdir →
    sbpfStep p s = .next
      (if s.opr = 1 ∨ s.opr = 3 ∨ s.opr = 10 then
        { s with busLog := .setDir .receive :: s.busLog, dir := .receive, estate := .arm }
      else SpecText.finished { s with busLog := .setDir .receive :: s.busLog, dir := .receive } 0)

/-- Step ARM (R151) under either policy: the flush, then the parser's registers. -/
def Obligations.ArmStep : Prop :=
  ∀ (p : FlushPolicy) (s : State), s.rst = false → s.pstate ≠ .reserved → s.estate = .arm →
    sbpfStep p s = .next
      { (if p = .everyAttempt ∨ s.first = true then tFlush s else s) with
        first := false, pstate := .seekSync1, acc := 0, cnt := 0, flen := 0, pfail := .none, estate := .parse }

/-- A flush discards a leading part of the unread receive stream, any part, as the draw says, and changes no register or buffer of
SBPF (R70). How a draw is written down is the model's choice (entry 3). -/
def Obligations.FlushDiscardsADrawnPart : Prop :=
  (∀ s : State, ∃ dropped : List ReadResult,
    s.rxStream = dropped ++ (tFlush s).rxStream ∧
    tFlush s = { s with
      rxStream := (tFlush s).rxStream, flushDraws := (tFlush s).flushDraws, flushCount := (tFlush s).flushCount
      busLog := .flush :: s.busLog }) ∧
  ∀ (s : State) (dropped rest : List ReadResult) (draws : List Nat), s.rxStream = dropped ++ rest →
    (tFlush { s with flushDraws := dropped.length :: draws }).rxStream = rest

/-- The sync-byte detector (R153, R154): a PARSE step on a byte in SEEK_SYNC1 and SEEK_SYNC2. -/
def Obligations.SyncDetectorTransitions : Prop :=
  ∀ (p : FlushPolicy) (s : State) (b : Byte), s.rst = false → s.estate = .parse → readResult s = .byte b →
    (s.pstate = .seekSync1 →
      sbpfStep p s = .next { tRead s with pstate := if b = 0x55 then .seekSync2 else .seekSync1 }) ∧
    (s.pstate = .seekSync2 →
      sbpfStep p s = .next { tRead s with pstate := if b = 0x55 then .readId else .seekSync1 })

/-- The framer's header bytes (R155, R156): a PARSE step on a byte in READ_ID and READ_LENGTH, with the length check. -/
def Obligations.HeaderByteTransitions : Prop :=
  ∀ (p : FlushPolicy) (s : State) (b : Byte), s.rst = false → s.estate = .parse → readResult s = .byte b →
    (s.pstate = .readId →
      sbpfStep p s = .next
        { tRead s with fb := Memory.write s.fb 0 b, cnt := 1, acc := s.acc + b, pstate := .readLength }) ∧
    (s.pstate = .readLength → 3 ≤ b.toNat → b.toNat ≤ 63 →
      sbpfStep p s = .next
        { tRead s with fb := Memory.write s.fb 1 b, cnt := 2, acc := s.acc + b, flen := b, pstate := .readBody }) ∧
    (s.pstate = .readLength → (b.toNat < 3 ∨ 63 < b.toNat) →
      sbpfStep p s = .next
        (SpecText.parseFailed
          { tRead s with fb := Memory.write s.fb 1 b, cnt := 2, acc := s.acc + b, flen := b } .length .length))

/-- The framer's body bytes and the validator (R157, R158): a PARSE step on a byte in READ_BODY, before the last byte, and on
the last one with a good and with a bad sum. FLEN at most 63 in READ_BODY is part of the
invariant that StepKeepsTheInvariant states. -/
def Obligations.BodyByteTransitions : Prop :=
  ∀ (p : FlushPolicy) (s : State) (b : Byte), s.rst = false → s.estate = .parse → readResult s = .byte b →
    s.pstate = .readBody → s.flen.toNat ≤ 63 →
    (s.cnt.toNat + 1 < s.flen.toNat + 1 →
      sbpfStep p s = .next
        { tRead s with fb := Memory.write s.fb s.cnt.toNat b, cnt := s.cnt + 1, acc := s.acc + b }) ∧
    (s.cnt.toNat + 1 = s.flen.toNat + 1 → s.acc + b = 0xFF →
      sbpfStep p s = .next
        { tRead s with
          fb := Memory.write s.fb s.cnt.toNat b, cnt := s.cnt + 1, acc := 0xFF, pstate := .complete, estate := .filter }) ∧
    (s.cnt.toNat + 1 = s.flen.toNat + 1 → s.acc + b ≠ 0xFF →
      sbpfStep p s = .next
        (SpecText.parseFailed
          { tRead s with fb := Memory.write s.fb s.cnt.toNat b, cnt := s.cnt + 1, acc := s.acc + b } .checksum .checksum))

/-- A timeout in any of the five reading states ends the operation; FB, CNT, ACC and FLEN keep their values (R160). -/
def Obligations.TimeoutEndsTheOperation : Prop :=
  ∀ (p : FlushPolicy) (s : State), s.rst = false → s.estate = .parse → readResult s = .timeout →
    (s.pstate = .seekSync1 ∨ s.pstate = .seekSync2 ∨ s.pstate = .readId ∨ s.pstate = .readLength ∨ s.pstate = .readBody) →
    sbpfStep p s = .next (SpecText.parseFailed (tRead s) .timeout .timeout)

/-- Step FILTER (R195): the match predicate and the result of each operation that awaits a frame, and the re-arm. -/
def Obligations.FilterStep : Prop :=
  ∀ (p : FlushPolicy) (s : State), s.rst = false → s.pstate ≠ .reserved → s.estate = .filter →
    (s.opr = 1 →
      sbpfStep p s = .next
        (if fbRead s 2 = 14 ∧ fbRead s 0 ≠ 0xFE ∧ s.flen ≠ 3 then SpecText.finished s (BitVec.ofNat 16 (fbRead s 0).toNat)
        else { s with estate := .arm })) ∧
    (s.opr = 3 →
      sbpfStep p s = .next
        (if fbRead s 2 = 28 ∧ s.flen = 5 then
          SpecText.finished s (BitVec.ofNat 16 ((fbRead s 3).toNat + 256 * (fbRead s 4).toNat))
        else { s with estate := .arm })) ∧
    (s.opr = 10 →
      sbpfStep p s = .next (SpecText.finished s (BitVec.ofNat 16 ((fbRead s 0).toNat + 256 * (fbRead s 2).toNat))))

/-- A state that holds ESTATE 7 or PSTATE 7 faults at the next step SBPF takes (R42). In IDLE it takes none. -/
def Obligations.ReservedStatesFault : Prop :=
  ∀ (p : FlushPolicy) (s : State), s.rst = false →
    (s.estate = .reserved → sbpfStep p s = .fault .reservedEState) ∧
    (s.pstate = .reserved → s.estate ≠ .idle → s.estate ≠ .reserved → sbpfStep p s = .fault .reservedPState)

/-- The encodings of ESTATE, PSTATE, DIR, PFAIL and STATUS.CODE (R23, R24, R27, R31, R111); no two states share one, and the
code of a parse failure is the number of its PFAIL. -/
def Obligations.StateEncodings : Prop :=
  ([EState.idle, .txdir, .txsend, .rxdir, .arm, .parse, .filter, .reserved].map (fun e => e.bits.toNat) = List.range 8) ∧
  ([PState.seekSync1, .seekSync2, .readId, .readLength, .readBody, .complete, .failed, .reserved].map
    (fun e => e.bits.toNat) = List.range 8) ∧
  Dir.receive.bits = 0 ∧ Dir.transmit.bits = 1 ∧
  ([PFail.none, .timeout, .checksum, .length].map (fun e => e.bits.toNat) = List.range 4) ∧
  ([Code.ok, .timeout, .checksum, .length, .badOp, .badId, .badArg].map (fun e => e.bits.toNat) = List.range 7) ∧
  ∀ f : PFail, f.code.bits.toNat = f.bits.toNat

/-! Host accesses. -/

/-- A host read returns the value of its index and changes nothing else, whatever its width (R250, R253; R60, R61, R69, R251,
R255). STATUS is written as the number its bits make (R110, R111). While an operation runs it reads 0x01 or 0x09. -/
def Obligations.HostReadValues : Prop :=
  (∀ (s : State) (idx : BitVec 8) (n : Nat) (rest : List Turn), s.rst = false →
    s.schedule = .host (.read idx n) :: rest →
    step s = .next
      { s with
        schedule := rest
        rdata :=
          if idx.toNat = 0 then
            BitVec.ofNat 16
              ((if s.estate = .idle then 0 else 1) + 2 * s.done.toNat + 4 * s.fail.toNat + 8 * s.ovr.toNat +
                16 * s.code.bits.toNat)
          else if idx.toNat = 1 then s.result
          else if 128 ≤ idx.toNat ∧ idx.toNat ≤ 191 then BitVec.ofNat 16 (fbRead s (idx.toNat - 128)).toNat
          else 0 }) ∧
  ∀ s : State, Inv s → s.estate ≠ .idle → statusWord s = if s.ovr then 0x09 else 0x01

/-- A host write that is no write of REQ sets a byte of TXPL when idle and is else ignored; a read of an index that is neither
STATUS, RESULT nor FB returns 0 and does nothing else (R64, R254, R256). -/
def Obligations.HostWriteEffects : Prop :=
  (∀ (s : State) (idx : BitVec 8) (n v : Nat) (rest : List Turn), s.rst = false →
    s.schedule = .host (.write idx n v) :: rest → idx.toNat ≠ 2 →
    step s = .next
      (if 64 ≤ idx.toNat ∧ idx.toNat ≤ 122 ∧ s.estate = .idle then
        { s with schedule := rest, txpl := Memory.write s.txpl (idx.toNat - 64) (BitVec.ofNat 8 v) }
      else { s with schedule := rest })) ∧
  ∀ (s : State) (idx : BitVec 8) (n : Nat) (rest : List Turn), s.rst = false → s.schedule = .host (.read idx n) :: rest →
    1 < idx.toNat → (idx.toNat < 128 ∨ 191 < idx.toNat) → step s = .next { s with schedule := rest, rdata := 0 }

/-- A byte written to TXPL is read back by the frame builder, and every other byte of TXPL is as before (R63, R254). -/
def Obligations.TxplHoldsWhatIsWritten : Prop :=
  ∀ (s : State) (i j : Nat) (b : Byte),
    txplRead (txplWrite i b s) i = b ∧ (j ≠ i → txplRead (txplWrite i b s) j = txplRead s j)

/-! Reset. -/

/-- The state right after reset (R41): each element's value. FB and TXPL are unspecified: a free value of the model (entry 4). -/
def Obligations.ResetState : Prop :=
  State.reset.estate.bits = 0 ∧ State.reset.estate = .idle ∧ State.reset.opr = 0 ∧ State.reset.rid = 0 ∧ State.reset.ra = 0 ∧
  State.reset.rb = 0 ∧ State.reset.first = false ∧ State.reset.dir = .receive ∧ State.reset.pstate = .seekSync1 ∧
  State.reset.acc = 0 ∧ State.reset.cnt = 0 ∧ State.reset.flen = 0 ∧ State.reset.pfail = .none ∧
  (∀ i, fbRead State.reset i = Config.freeFb 0 i ∧ txplRead State.reset i = Config.freeTxpl 0 i) ∧
  statusWord State.reset = 0x00 ∧ State.reset.result = 0x0000 ∧ State.reset.busLog = []

/-- The reset input (R310, R312): asserting it puts every register at its reset value and makes no transport call; while it is
asserted SBPF and the host change nothing; releasing it leaves the reset values. What is kept beside R22's state is the model's
choice (entry 10). -/
def Obligations.ResetInputBehaviour : Prop :=
  (∀ (s : State) (level : Bool) (rest : List Turn), s.schedule = .resetInput level :: rest → (level = true ∨ s.rst = true) →
    ∃ t, step s = .next t ∧
      t = { State.reset with
        rst := level, rxStream := s.rxStream, flushDraws := s.flushDraws, readCount := s.readCount, flushCount := s.flushCount
        resets := s.resets + 1, busLog := s.busLog, rdata := s.rdata, schedule := rest }) ∧
  (∀ (s : State) (a : HostAccess) (rest : List Turn), s.rst = true →
    (s.schedule = .host a :: rest ∨ s.schedule = .sbpf :: rest ∨ (s.schedule = [] ∧ rest = [])) →
    step s = .next { s with schedule := rest }) ∧
  (∀ (s : State) (rest : List Turn), s.rst = false → s.schedule = .resetInput false :: rest →
    step s = .next { s with schedule := rest })

/-! Invariants and rules of the whole machine. -/

/-- The invariant holds right after reset. -/
def Obligations.ResetMeetsTheInvariant : Prop := Inv State.reset

/-- Every step keeps the invariant (R40 and the rules Safety.lean names). -/
def Obligations.StepKeepsTheInvariant : Prop := ∀ s t : State, Inv s → step s = .next t → Inv t

/-- From a state that meets the invariant no step stops, under either flush policy, and the invariant holds after it: the
reserved states, an overflow of FB and an oversized payload are never reached (R40, R42, R133, R171). -/
def Obligations.NoStepFromTheInvariantStops : Prop :=
  ∀ (p : FlushPolicy) (s : State), Inv s → ∃ t, stepUnder p s = .next t ∧ Inv t

/-- A step makes at most one transport call (R8). -/
def Obligations.OneTransportCallPerStep : Prop :=
  ∀ (p : FlushPolicy) (s t : State), stepUnder p s = .next t → t.busLog = s.busLog ∨ ∃ c, t.busLog = c :: s.busLog

/-- The latched request and TXPL are constant while an operation is in flight, unless reset ends it (R25, R63, R76). -/
def Obligations.RequestAndPayloadFrozenWhileBusy : Prop :=
  ∀ (p : FlushPolicy) (s t : State), stepUnder p s = .next t → s.estate ≠ .idle → t.resets = s.resets →
    t.opr = s.opr ∧ t.rid = s.rid ∧ t.ra = s.ra ∧ t.rb = s.rb ∧ t.txpl = s.txpl

/-- FB changes only in PARSE steps, and there only at index CNT, unless reset intervenes (R32, R62). -/
def Obligations.FrameBufferWrittenOnlyAtCnt : Prop :=
  ∀ (p : FlushPolicy) (s t : State), Inv s → stepUnder p s = .next t → t.resets = s.resets →
    (s.estate ≠ .parse → t.fb = s.fb) ∧ ∀ i, i ≠ s.cnt.toNat → fbRead t i = fbRead s i

/-- The `done` output rises only with the outcome in place, and falls only on an accepted request or on reset (R74, R272). -/
def Obligations.DoneRisesWithTheOutcome : Prop :=
  ∀ (p : FlushPolicy) (s t : State), stepUnder p s = .next t →
    (doneOutput s = false → doneOutput t = true →
      t.estate = .idle ∧ ((t.fail = false ∧ t.code = .ok) ∨ (t.fail = true ∧ t.code ≠ .ok ∧ t.result = Config.failSentinel))) ∧
    (doneOutput s = true → doneOutput t = false →
      (s.estate = .idle ∧ (t.estate = .txdir ∨ t.estate = .rxdir) ∧ t.result = 0) ∨ t.resets = s.resets + 1)

/-- FB is final at completion (R74) as far as the steps of the parser leave it so: a step that raises `done` changes FB only if
it is the PARSE step that stores the byte on which the operation fails with LENGTH or CHECKSUM (R156, R158; entry 23). There
too FB is stored first and the outcome published after it, in the order written (R12): the parser's transition leaves what is
published as it was, and what follows it leaves FB. -/
def Obligations.FrameBufferIsFinalAtCompletion : Prop :=
  (∀ (p : FlushPolicy) (s t : State), stepUnder p s = .next t → doneOutput s = false → doneOutput t = true →
    t.fb = s.fb ∨ (s.estate = .parse ∧ t.estate = .idle ∧ t.fail = true ∧ (t.code = .length ∨ t.code = .checksum))) ∧
  ∀ s t : State, parseStep s = .next t →
    ∃ u, (match readResult s with
        | .byte b => onByte b (tRead s)
        | .timeout => onTimeout (tRead s)) = .next u ∧
      u.done = s.done ∧ u.fail = s.fail ∧ u.code = s.code ∧ u.result = s.result ∧ u.estate = s.estate ∧
      t = afterTransition u ∧ t.fb = u.fb

/-- In IDLE SBPF does nothing: it makes no transport call between operations (R8, R24, R340). -/
def Obligations.IdleTakesNoStep : Prop :=
  ∀ (p : FlushPolicy) (s : State), s.estate = .idle → sbpfStep p s = .next s

/-- Once an operation has ended, RESULT, STATUS, FB and the registers of the parser stay as they are until REQ is written or reset
is driven: every other turn from IDLE leaves them (R74, R321). -/
def Obligations.PublishedOutcomeStays : Prop :=
  ∀ (p : FlushPolicy) (s t : State), stepUnder p s = .next t → s.estate = .idle → t.resets = s.resets →
    (∀ n v, s.schedule.head? ≠ some (.host (.write 0x02 n v))) →
    statusWord t = statusWord s ∧ t.result = s.result ∧ t.fb = s.fb ∧ (∀ i, fbRead t i = fbRead s i) ∧ t.estate = .idle ∧
    t.pstate = s.pstate ∧ t.cnt = s.cnt ∧ t.flen = s.flen ∧ t.pfail = s.pfail ∧ t.busLog = s.busLog

/-- A host that sees an idle SBPF reads the final STATUS, RESULT and FB however many accesses it makes, as long as the turns to come
hold no write of REQ and no reset (R74, R69, R73, R321). -/
def Obligations.FinalValuesAreReadUntilTheNextRequest : Prop :=
  ∀ (s : State) (n : Nat), s.estate = .idle →
    (∀ x ∈ s.schedule, (∀ k v, x ≠ .host (.write 0x02 k v)) ∧ ∀ l, x ≠ .resetInput l) →
    ∃ t, Host.Core.run core n s = .next t ∧ t.estate = .idle ∧ statusWord t = statusWord s ∧ t.result = s.result ∧
      (∀ i, fbRead t i = fbRead s i) ∧ t.busLog = s.busLog ∧ t.schedule = s.schedule.drop n

/-- OVR is set only by a write of REQ while busy, which changes nothing else, and cleared only by a write of REQ in IDLE or by
reset (R34, R252). -/
def Obligations.OverrunOnlyFromADroppedRequest : Prop :=
  ∀ (p : FlushPolicy) (s t : State), stepUnder p s = .next t →
    (s.ovr = false → t.ovr = true →
      s.estate ≠ .idle ∧ (∃ n v, s.schedule.head? = some (.host (.write 0x02 n v))) ∧
      t = { s with ovr := true, schedule := t.schedule }) ∧
    (s.ovr = true → t.ovr = false →
      (s.estate = .idle ∧ ∃ n v, s.schedule.head? = some (.host (.write 0x02 n v))) ∨ t.resets = s.resets + 1)

/-- What the host does while an operation runs does not reach it: SBPF's step is the same whatever OVR and the host's last
read are (R69, R252, R273). -/
def Obligations.OperationIgnoresOverrunAndReads : Prop :=
  ∀ (p : FlushPolicy) (s : State) (o : Bool) (v : Half),
    sbpfStep p { s with ovr := o, rdata := v } =
      (match sbpfStep p s with
      | .next t => .next { t with ovr := o, rdata := v }
      | .fault r => .fault r
      | .refused r => .refused r)

/-- The line is in TRANSMIT for every send and in RECEIVE for every read (R23, R40, R296). -/
def Obligations.LineDirectionDiscipline : Prop :=
  ∀ (p : FlushPolicy) (s t : State), Inv s → stepUnder p s = .next t →
    (∀ f, t.busLog = .send f :: s.busLog → s.dir = .transmit) ∧ ∀ w, t.busLog = .read w :: s.busLog → s.dir = .receive

/-- The identifier a frame is sent to is never 0xFF, and is 0xFE for the broadcast operations; SET_ID never assigns 0xFE or
0xFF (R193, R95). -/
def Obligations.IdentifierDiscipline : Prop :=
  ∀ (p : FlushPolicy) (s t : State) (f : List Byte), Inv s → stepUnder p s = .next t → t.busLog = .send f :: s.busLog →
    f[2]? ≠ some 0xFF ∧ (s.opr = 1 ∨ s.opr = 2 ∨ s.opr = 6 ∨ s.opr = 7 → f[2]? = some 0xFE) ∧
    (s.opr = 2 → f[4]? = some 13 ∧ f[5]? ≠ some 0xFE ∧ f[5]? ≠ some 0xFF)

/-! Whole operations. They start with PSTATE not reserved, which every state of the invariant meets. -/

/-- SET_ID, MOVE, MOVE_WAIT, START, STOP, ENABLE and TX_RAW take three SBPF steps: they send one frame between two direction
calls and complete with RESULT 0 (R198, R201, R204 to R209). The order of a move's payload is the spec's general knowledge
(entry 16). -/
def Obligations.NoResponseOperationsCompleteInThreeSteps : Prop :=
  ∀ (i : Instr) (s : State) (f : List Byte), i.wellFormed = true → SpecText.frameOf s i = some f →
    s.estate = .idle → s.rst = false → s.pstate ≠ .reserved → s.schedule = [] →
    ∃ a t, exec i s = .next a ∧ Host.Core.run core 3 a = .next t ∧
      t.busLog = .setDir .receive :: .send f :: .setDir .transmit :: s.busLog ∧
      t.estate = .idle ∧ t.done = true ∧ t.fail = false ∧ t.code = .ok ∧ t.ovr = false ∧ t.result = 0 ∧
      t.rxStream = s.rxStream ∧ t.fb = s.fb ∧ t.txpl = s.txpl

/-- An attempt on a stream of bytes none of which is 0x55 followed by an encoded frame ends COMPLETE with the frame in FB, after
exactly one PARSE step per byte (R161, R163). -/
def Obligations.EncodedFrameIsReceived : Prop :=
  ∀ (s : State) (noise : List Byte) (id cmd : Byte) (p : List Byte) (rest : List ReadResult),
    s.rst = false → s.pstate ≠ .reserved → s.schedule = [] → s.estate = .arm → flushAmount s = 0 → p.length ≤ 60 →
    (∀ b ∈ noise, b ≠ 0x55) → s.rxStream = SpecText.bytes (noise ++ encodeFrame id cmd p) ++ rest →
    ∃ t, Host.Core.run core (1 + (noise.length + p.length + 6)) s = .next t ∧
      t.estate = .filter ∧ t.pstate = .complete ∧ t.rxStream = rest ∧ t.flen.toNat = p.length + 3 ∧
      t.cnt.toNat = p.length + 4 ∧ fbTake (p.length + 4) t = (encodeFrame id cmd p).drop 2

/-- The same frame with one body byte other than the length byte changed ends the operation with CHECKSUM (R161, R158, R197). -/
def Obligations.CorruptedFrameFailsTheChecksum : Prop :=
  ∀ (s : State) (id cmd : Byte) (p : List Byte) (k : Nat) (b : Byte) (rest : List ReadResult),
    s.rst = false → s.pstate ≠ .reserved → s.schedule = [] → s.estate = .arm → flushAmount s = 0 → p.length ≤ 60 →
    k < p.length + 4 → k ≠ 1 → (encodeFrame id cmd p)[k + 2]? ≠ some b →
    s.rxStream = SpecText.bytes ((encodeFrame id cmd p).set (k + 2) b) ++ rest →
    ∃ t, Host.Core.run core (1 + (p.length + 6)) s = .next t ∧
      t.estate = .idle ∧ t.pstate = .failed ∧ t.pfail = .checksum ∧ t.done = true ∧ t.fail = true ∧ t.code = .checksum ∧
      t.result = Config.failSentinel ∧ t.rxStream = rest

/-- READ_POS through the echo of its own query to a reply from any device: 21 steps, and the reply's 16 bits in RESULT
(R202, R195, R336). The flushes drop nothing here; what they may drop is a draw (R322). -/
def Obligations.ReadPosReturnsTheRepliedPosition : Prop :=
  ∀ (s : State) (id from_ lo hi : Byte) (draws : List Nat) (rest : List ReadResult),
    id.toNat ≤ 254 → s.estate = .idle → s.rst = false → s.pstate ≠ .reserved → s.schedule = [] → s.flushDraws = 0 :: 0 :: draws →
    s.rxStream = SpecText.bytes (encodeFrame id 28 [] ++ encodeFrame from_ 28 [lo, hi]) ++ rest →
    ∃ a t, exec (.readPos id) s = .next a ∧ Host.Core.run core 21 a = .next t ∧
      t.estate = .idle ∧ t.done = true ∧ t.fail = false ∧ t.code = .ok ∧ t.result = BitVec.ofNat 16 (lo.toNat + 256 * hi.toNat) ∧
      t.rxStream = rest ∧ (.send (encodeFrame id 28 []) : BusCall) ∈ t.busLog

/-- QUERY_ID through the echo of its own query to a reply with a payload: the replying identifier in RESULT (R200, R195). -/
def Obligations.QueryIdReturnsTheRepliersIdentifier : Prop :=
  ∀ (s : State) (from_ : Byte) (p : List Byte) (draws : List Nat) (rest : List ReadResult),
    from_ ≠ 0xFE → 1 ≤ p.length → p.length ≤ 60 → s.estate = .idle → s.rst = false → s.pstate ≠ .reserved → s.schedule = [] →
    s.flushDraws = 0 :: 0 :: draws →
    s.rxStream = SpecText.bytes (encodeFrame 0xFE 14 [] ++ encodeFrame from_ 14 p) ++ rest →
    ∃ a t, exec .queryId s = .next a ∧ Host.Core.run core (p.length + 19) a = .next t ∧
      t.estate = .idle ∧ t.done = true ∧ t.fail = false ∧ t.code = .ok ∧ t.result = BitVec.ofNat 16 from_.toNat ∧
      t.rxStream = rest ∧ (.send (encodeFrame 0xFE 14 []) : BusCall) ∈ t.busLog

/-- RX_FRAME returns any valid frame unfiltered: command and identifier in RESULT, the frame in FB (R210, R195). -/
def Obligations.RxFrameReturnsAnyFrame : Prop :=
  ∀ (s : State) (id cmd : Byte) (p : List Byte) (draws : List Nat) (rest : List ReadResult),
    p.length ≤ 60 → s.estate = .idle → s.rst = false → s.pstate ≠ .reserved → s.schedule = [] → s.flushDraws = 0 :: draws →
    s.rxStream = SpecText.bytes (encodeFrame id cmd p) ++ rest →
    ∃ a t, exec .rxFrame s = .next a ∧ Host.Core.run core (p.length + 9) a = .next t ∧
      t.estate = .idle ∧ t.done = true ∧ t.fail = false ∧ t.code = .ok ∧
      t.result = BitVec.ofNat 16 (id.toNat + 256 * cmd.toNat) ∧
      fbTake (p.length + 4) t = (encodeFrame id cmd p).drop 2 ∧ t.rxStream = rest ∧
      ∀ f, (.send f : BusCall) ∈ t.busLog → (.send f : BusCall) ∈ s.busLog
end

