-- ==== Sys2Proof/Laws/Codec.lean ====
section
/-! SUPPORT. Sums over lists of bytes, and the parts of 16-bit values. -/

namespace Sys2Proof.Machine

@[simp] theorem sum8_nil : sum8 [] = 0 := rfl

@[simp] theorem sum8_cons (b : Byte) (p : List Byte) : sum8 (b :: p) = b + sum8 p := rfl

@[simp] theorem sum8_append (p q : List Byte) : sum8 (p ++ q) = sum8 p + sum8 q := by
  induction p with
  | nil => simp
  | cons b p ih => simp [ih, BitVec.add_assoc]

@[simp] theorem frameBody_length (id cmd : Byte) (p : List Byte) : (frameBody id cmd p).length = p.length + 3 := rfl

@[simp] theorem encodeFrame_length (id cmd : Byte) (p : List Byte) : (encodeFrame id cmd p).length = p.length + 6 := by
  simp [encodeFrame]

@[simp] theorem lowByte_le16 (lo hi : Byte) : lowByte (le16 lo hi) = lo := by
  apply BitVec.eq_of_getLsbD_eq
  intro i hi
  simp only [lowByte, le16, BitVec.getLsbD_extractLsb', BitVec.getLsbD_append]
  simp [hi]

@[simp] theorem highByte_le16 (lo hi : Byte) : highByte (le16 lo hi) = hi := by
  apply BitVec.eq_of_getLsbD_eq
  intro i hi
  simp only [highByte, le16, BitVec.getLsbD_extractLsb', BitVec.getLsbD_append]
  simp [hi]

theorem le16_split (v : Half) : le16 (lowByte v) (highByte v) = v := by
  apply BitVec.eq_of_getLsbD_eq
  intro i hi
  simp only [le16, lowByte, highByte, BitVec.getLsbD_append, BitVec.getLsbD_extractLsb']
  by_cases h : i < 8
  · simp [h]
  · simp [h, show i - 8 < 8 by omega, show 8 + (i - 8) = i by omega]

theorem le16_toNat (lo hi : Byte) : (le16 lo hi).toNat = lo.toNat + 256 * hi.toNat := by
  refine (BitVec.toNat_append hi lo).trans ?_
  rw [← Nat.shiftLeft_add_eq_or_of_lt lo.isLt, Nat.shiftLeft_eq]
  omega

theorem zext16_toNat (b : Byte) : (zext16 b).toNat = b.toNat := by
  refine (BitVec.toNat_append (0 : Byte) b).trans ?_
  simp

theorem lowByte_toNat (v : Half) : (lowByte v).toNat = v.toNat % 256 := by simp [lowByte]

theorem highByte_toNat (v : Half) : (highByte v).toNat = v.toNat / 256 := by
  simp [highByte, Nat.shiftRight_eq_div_pow]; omega

end Sys2Proof.Machine
end

