-- ==== Sys2Proof/Laws/Config.lean ====
section
/-! SUPPORT. The parameters of R9, the operation codes (R105) and the command bytes (R96) as numerals, for simp. -/

namespace Sys2Proof

@[simp] theorem Config.sync_eq : Config.sync = 0x55 := rfl
@[simp] theorem Config.bcast_eq : Config.bcast = 0xFE := rfl
@[simp] theorem Config.rsvdId_eq : Config.rsvdId = 0xFF := rfl
@[simp] theorem Config.maxUnicastId_eq : Config.maxUnicastId = 0xFD := rfl
@[simp] theorem Config.fbCap_eq : Config.fbCap = 64 := rfl
@[simp] theorem Config.minLen_eq : Config.minLen = 3 := rfl
@[simp] theorem Config.maxRxLen_eq : Config.maxRxLen = 63 := rfl
@[simp] theorem Config.maxTxPayload_eq : Config.maxTxPayload = 59 := rfl
@[simp] theorem Config.posMin_eq : Config.posMin = 125 := rfl
@[simp] theorem Config.posMax_eq : Config.posMax = 875 := rfl

@[simp] theorem Op.queryId_eq : Op.queryId = 1 := rfl
@[simp] theorem Op.setId_eq : Op.setId = 2 := rfl
@[simp] theorem Op.readPos_eq : Op.readPos = 3 := rfl
@[simp] theorem Op.move_eq : Op.move = 4 := rfl
@[simp] theorem Op.moveWait_eq : Op.moveWait = 5 := rfl
@[simp] theorem Op.start_eq : Op.start = 6 := rfl
@[simp] theorem Op.stop_eq : Op.stop = 7 := rfl
@[simp] theorem Op.enable_eq : Op.enable = 8 := rfl
@[simp] theorem Op.txRaw_eq : Op.txRaw = 9 := rfl
@[simp] theorem Op.rxFrame_eq : Op.rxFrame = 10 := rfl

@[simp] theorem Cmd.moveTimeWrite_eq : Cmd.moveTimeWrite = 1 := rfl
@[simp] theorem Cmd.moveTimeWaitWrite_eq : Cmd.moveTimeWaitWrite = 7 := rfl
@[simp] theorem Cmd.moveStart_eq : Cmd.moveStart = 11 := rfl
@[simp] theorem Cmd.moveStop_eq : Cmd.moveStop = 12 := rfl
@[simp] theorem Cmd.idWrite_eq : Cmd.idWrite = 13 := rfl
@[simp] theorem Cmd.idRead_eq : Cmd.idRead = 14 := rfl
@[simp] theorem Cmd.posRead_eq : Cmd.posRead = 28 := rfl
@[simp] theorem Cmd.loadUnloadWrite_eq : Cmd.loadUnloadWrite = 31 := rfl

end Sys2Proof
end

