-- ==== Sys2Proof/Laws/Decode.lean ====
section
/-! SUPPORT. Each field of a packed request word is the field it was packed from. -/

namespace Sys2Proof

@[simp] theorem reqOp_packReq (op : BitVec 4) (id : Byte) (a b : Half) : reqOp (packReq op id a b) = op := by
  apply BitVec.eq_of_getLsbD_eq; intro i hi
  simp only [reqOp, packReq, BitVec.getLsbD_extractLsb', BitVec.getLsbD_append]
  simp [hi]

@[simp] theorem reqRsv_packReq (op : BitVec 4) (id : Byte) (a b : Half) : reqRsv (packReq op id a b) = 0 := by
  apply BitVec.eq_of_getLsbD_eq; intro i hi
  simp only [reqRsv, packReq, BitVec.getLsbD_extractLsb', BitVec.getLsbD_append]
  simp [hi]

@[simp] theorem reqId_packReq (op : BitVec 4) (id : Byte) (a b : Half) : reqId (packReq op id a b) = id := by
  apply BitVec.eq_of_getLsbD_eq; intro i hi
  simp only [reqId, packReq, BitVec.getLsbD_extractLsb', BitVec.getLsbD_append]
  simp [hi, show ¬ 8 + i < 4 by omega, show ¬ 8 + i - 4 < 4 by omega, show 8 + i - 4 - 4 = i by omega]

@[simp] theorem reqA_packReq (op : BitVec 4) (id : Byte) (a b : Half) : reqA (packReq op id a b) = a := by
  apply BitVec.eq_of_getLsbD_eq; intro i hi
  simp only [reqA, packReq, BitVec.getLsbD_extractLsb', BitVec.getLsbD_append]
  simp [hi, show ¬ 16 + i < 4 by omega, show ¬ 16 + i - 4 < 4 by omega, show ¬ 16 + i - 4 - 4 < 8 by omega,
    show 16 + i - 4 - 4 - 8 = i by omega]

@[simp] theorem reqB_packReq (op : BitVec 4) (id : Byte) (a b : Half) : reqB (packReq op id a b) = b := by
  apply BitVec.eq_of_getLsbD_eq; intro i hi
  simp only [reqB, packReq, BitVec.getLsbD_extractLsb', BitVec.getLsbD_append]
  simp [hi, show ¬ 32 + i < 4 by omega, show ¬ 32 + i - 4 < 4 by omega, show ¬ 32 + i - 4 - 4 < 8 by omega,
    show ¬ 32 + i - 4 - 4 - 8 < 16 by omega, show 32 + i - 4 - 4 - 8 - 16 = i by omega]

@[simp] theorem argByte_packByte (v : Byte) : argByte (packByte v) = v := by
  apply BitVec.eq_of_getLsbD_eq; intro i hi
  simp only [argByte, packByte, BitVec.getLsbD_extractLsb', BitVec.getLsbD_append]
  simp [hi]

@[simp] theorem argHigh_packByte (v : Byte) : argHigh (packByte v) = 0 := by
  apply BitVec.eq_of_getLsbD_eq; intro i hi
  simp only [argHigh, packByte, BitVec.getLsbD_extractLsb', BitVec.getLsbD_append]
  simp [hi]

@[simp] theorem argByte_packRaw (c : Byte) (n : BitVec 6) : argByte (packRaw c n) = c := by
  apply BitVec.eq_of_getLsbD_eq; intro i hi
  simp only [argByte, packRaw, BitVec.getLsbD_extractLsb', BitVec.getLsbD_append]
  simp [hi]

@[simp] theorem argCount_packRaw (c : Byte) (n : BitVec 6) : argCount (packRaw c n) = n := by
  apply BitVec.eq_of_getLsbD_eq; intro i hi
  simp only [argCount, packRaw, BitVec.getLsbD_extractLsb', BitVec.getLsbD_append]
  simp [hi]

@[simp] theorem argTop_packRaw (c : Byte) (n : BitVec 6) : argTop (packRaw c n) = 0 := by
  apply BitVec.eq_of_getLsbD_eq; intro i hi
  simp only [argTop, packRaw, BitVec.getLsbD_extractLsb', BitVec.getLsbD_append]
  simp [hi, show ¬ 14 + i < 8 by omega, show ¬ 14 + i - 8 < 6 by omega]

@[simp] theorem unlessReserved_false (i : Instr) : unlessReserved false i = .ok i := rfl

theorem unlessReserved_ok {nonzero : Bool} {i j : Instr} (h : unlessReserved nonzero i = .ok j) : nonzero = false ∧ j = i := by
  cases nonzero <;> simp_all [unlessReserved]

@[simp] theorem unlessReserved_true (i : Instr) : unlessReserved true i = .error .reservedField := rfl

/-! The fields as numbers, and a word from its fields. -/

theorem packByte_toNat (v : Byte) : (packByte v).toNat = v.toNat := by
  refine (BitVec.toNat_append (0 : Byte) v).trans ?_
  simp

theorem packRaw_toNat (c : Byte) (n : BitVec 6) : (packRaw c n).toNat = 256 * n.toNat + c.toNat := by
  refine (BitVec.toNat_append ((0 : BitVec 2) ++ n) c).trans ?_
  rw [← Nat.shiftLeft_add_eq_or_of_lt c.isLt, Nat.shiftLeft_eq, BitVec.toNat_append]
  simp; omega

theorem reqOp_toNat (w : ReqWord) : (reqOp w).toNat = w.toNat % 16 := by simp [reqOp]

theorem reqRsv_toNat (w : ReqWord) : (reqRsv w).toNat = w.toNat / 16 % 16 := by simp [reqRsv, Nat.shiftRight_eq_div_pow]

theorem reqId_toNat (w : ReqWord) : (reqId w).toNat = w.toNat / 256 % 256 := by simp [reqId, Nat.shiftRight_eq_div_pow]

theorem reqA_toNat (w : ReqWord) : (reqA w).toNat = w.toNat / 65536 % 65536 := by simp [reqA, Nat.shiftRight_eq_div_pow]

theorem reqB_toNat (w : ReqWord) : (reqB w).toNat = w.toNat / 4294967296 % 65536 := by simp [reqB, Nat.shiftRight_eq_div_pow]

theorem argByte_toNat (a : Half) : (argByte a).toNat = a.toNat % 256 := by simp [argByte]

theorem argHigh_toNat (a : Half) : (argHigh a).toNat = a.toNat / 256 := by simp [argHigh, Nat.shiftRight_eq_div_pow]; omega

theorem argCount_toNat (a : Half) : (argCount a).toNat = a.toNat / 256 % 64 := by simp [argCount, Nat.shiftRight_eq_div_pow]

theorem argTop_toNat (a : Half) : (argTop a).toNat = a.toNat / 16384 := by simp [argTop, Nat.shiftRight_eq_div_pow]; omega

theorem packReq_split (w : ReqWord) (h : reqRsv w = 0) : packReq (reqOp w) (reqId w) (reqA w) (reqB w) = w := by
  apply BitVec.eq_of_getLsbD_eq
  intro i hi
  have hr : ∀ j, (reqRsv w).getLsbD j = false := by simp [h]
  simp only [packReq, BitVec.getLsbD_append, reqOp, reqId, reqA, reqB, BitVec.getLsbD_extractLsb']
  by_cases h1 : i < 4
  · simp [h1]
  · by_cases h2 : i - 4 < 4
    · have := hr (i - 4); simp [reqRsv, h2, show 4 + (i - 4) = i by omega] at this
      simp [h1, h2, this]
    · by_cases h3 : i - 4 - 4 < 8
      · simp [h1, h2, h3, show 8 + (i - 4 - 4) = i by omega]
      · by_cases h4 : i - 4 - 4 - 8 < 16
        · simp [h1, h2, h3, h4, show 16 + (i - 4 - 4 - 8) = i by omega]
        · simp [h1, h2, h3, h4, show 32 + (i - 4 - 4 - 8 - 16) = i by omega, show i - 4 - 4 - 8 - 16 < 16 by omega]

theorem packByte_argByte (a : Half) (h : argHigh a = 0) : packByte (argByte a) = a := by
  apply BitVec.eq_of_toNat_eq
  have := congrArg BitVec.toNat h
  rw [argHigh_toNat] at this
  rw [packByte_toNat, argByte_toNat]; simp at this; omega

theorem packRaw_arg (a : Half) (h : argTop a = 0) : packRaw (argByte a) (argCount a) = a := by
  apply BitVec.eq_of_toNat_eq
  have := congrArg BitVec.toNat h
  rw [argTop_toNat] at this
  rw [packRaw_toNat, argByte_toNat, argCount_toNat]; simp at this; omega

end Sys2Proof
end

