-- ==== Sys2Proof/Laws/Flags.lean ====
section
/-! SUPPORT. STATUS as a number (R110). -/

namespace Sys2Proof.Machine

theorem statusWord_toNat (s : State) :
    (statusWord s).toNat = (busy s).toNat + 2 * s.done.toNat + 4 * s.fail.toNat + 8 * s.ovr.toNat + 16 * s.code.bits.toNat := by
  unfold statusWord
  cases s.code <;> cases s.ovr <;> cases s.fail <;> cases s.done <;> cases busy s <;> rfl

end Sys2Proof.Machine
end

