-- ==== Sys2Proof/Laws/State.lean ====
section
/-! SUPPORT. What each named update leaves in each field: true by rfl, and tagged so that no later proof unfolds an update. -/

namespace Sys2Proof.Machine

/-! setEState -/

@[simp] theorem setEState_estate (e : EState) (s : State) : (setEState e s).estate = e := rfl
@[simp] theorem setEState_opr (e : EState) (s : State) : (setEState e s).opr = s.opr := rfl
@[simp] theorem setEState_rid (e : EState) (s : State) : (setEState e s).rid = s.rid := rfl
@[simp] theorem setEState_ra (e : EState) (s : State) : (setEState e s).ra = s.ra := rfl
@[simp] theorem setEState_rb (e : EState) (s : State) : (setEState e s).rb = s.rb := rfl
@[simp] theorem setEState_first (e : EState) (s : State) : (setEState e s).first = s.first := rfl
@[simp] theorem setEState_dir (e : EState) (s : State) : (setEState e s).dir = s.dir := rfl
@[simp] theorem setEState_pstate (e : EState) (s : State) : (setEState e s).pstate = s.pstate := rfl
@[simp] theorem setEState_acc (e : EState) (s : State) : (setEState e s).acc = s.acc := rfl
@[simp] theorem setEState_cnt (e : EState) (s : State) : (setEState e s).cnt = s.cnt := rfl
@[simp] theorem setEState_flen (e : EState) (s : State) : (setEState e s).flen = s.flen := rfl
@[simp] theorem setEState_pfail (e : EState) (s : State) : (setEState e s).pfail = s.pfail := rfl
@[simp] theorem setEState_fb (e : EState) (s : State) : (setEState e s).fb = s.fb := rfl
@[simp] theorem setEState_txpl (e : EState) (s : State) : (setEState e s).txpl = s.txpl := rfl
@[simp] theorem setEState_done (e : EState) (s : State) : (setEState e s).done = s.done := rfl
@[simp] theorem setEState_fail (e : EState) (s : State) : (setEState e s).fail = s.fail := rfl
@[simp] theorem setEState_ovr (e : EState) (s : State) : (setEState e s).ovr = s.ovr := rfl
@[simp] theorem setEState_code (e : EState) (s : State) : (setEState e s).code = s.code := rfl
@[simp] theorem setEState_result (e : EState) (s : State) : (setEState e s).result = s.result := rfl
@[simp] theorem setEState_rst (e : EState) (s : State) : (setEState e s).rst = s.rst := rfl
@[simp] theorem setEState_rxStream (e : EState) (s : State) : (setEState e s).rxStream = s.rxStream := rfl
@[simp] theorem setEState_flushDraws (e : EState) (s : State) : (setEState e s).flushDraws = s.flushDraws := rfl
@[simp] theorem setEState_readCount (e : EState) (s : State) : (setEState e s).readCount = s.readCount := rfl
@[simp] theorem setEState_flushCount (e : EState) (s : State) : (setEState e s).flushCount = s.flushCount := rfl
@[simp] theorem setEState_resets (e : EState) (s : State) : (setEState e s).resets = s.resets := rfl
@[simp] theorem setEState_busLog (e : EState) (s : State) : (setEState e s).busLog = s.busLog := rfl
@[simp] theorem setEState_rdata (e : EState) (s : State) : (setEState e s).rdata = s.rdata := rfl
@[simp] theorem setEState_schedule (e : EState) (s : State) : (setEState e s).schedule = s.schedule := rfl

/-! setPState -/

@[simp] theorem setPState_estate (p : PState) (s : State) : (setPState p s).estate = s.estate := rfl
@[simp] theorem setPState_opr (p : PState) (s : State) : (setPState p s).opr = s.opr := rfl
@[simp] theorem setPState_rid (p : PState) (s : State) : (setPState p s).rid = s.rid := rfl
@[simp] theorem setPState_ra (p : PState) (s : State) : (setPState p s).ra = s.ra := rfl
@[simp] theorem setPState_rb (p : PState) (s : State) : (setPState p s).rb = s.rb := rfl
@[simp] theorem setPState_first (p : PState) (s : State) : (setPState p s).first = s.first := rfl
@[simp] theorem setPState_dir (p : PState) (s : State) : (setPState p s).dir = s.dir := rfl
@[simp] theorem setPState_pstate (p : PState) (s : State) : (setPState p s).pstate = p := rfl
@[simp] theorem setPState_acc (p : PState) (s : State) : (setPState p s).acc = s.acc := rfl
@[simp] theorem setPState_cnt (p : PState) (s : State) : (setPState p s).cnt = s.cnt := rfl
@[simp] theorem setPState_flen (p : PState) (s : State) : (setPState p s).flen = s.flen := rfl
@[simp] theorem setPState_pfail (p : PState) (s : State) : (setPState p s).pfail = s.pfail := rfl
@[simp] theorem setPState_fb (p : PState) (s : State) : (setPState p s).fb = s.fb := rfl
@[simp] theorem setPState_txpl (p : PState) (s : State) : (setPState p s).txpl = s.txpl := rfl
@[simp] theorem setPState_done (p : PState) (s : State) : (setPState p s).done = s.done := rfl
@[simp] theorem setPState_fail (p : PState) (s : State) : (setPState p s).fail = s.fail := rfl
@[simp] theorem setPState_ovr (p : PState) (s : State) : (setPState p s).ovr = s.ovr := rfl
@[simp] theorem setPState_code (p : PState) (s : State) : (setPState p s).code = s.code := rfl
@[simp] theorem setPState_result (p : PState) (s : State) : (setPState p s).result = s.result := rfl
@[simp] theorem setPState_rst (p : PState) (s : State) : (setPState p s).rst = s.rst := rfl
@[simp] theorem setPState_rxStream (p : PState) (s : State) : (setPState p s).rxStream = s.rxStream := rfl
@[simp] theorem setPState_flushDraws (p : PState) (s : State) : (setPState p s).flushDraws = s.flushDraws := rfl
@[simp] theorem setPState_readCount (p : PState) (s : State) : (setPState p s).readCount = s.readCount := rfl
@[simp] theorem setPState_flushCount (p : PState) (s : State) : (setPState p s).flushCount = s.flushCount := rfl
@[simp] theorem setPState_resets (p : PState) (s : State) : (setPState p s).resets = s.resets := rfl
@[simp] theorem setPState_busLog (p : PState) (s : State) : (setPState p s).busLog = s.busLog := rfl
@[simp] theorem setPState_rdata (p : PState) (s : State) : (setPState p s).rdata = s.rdata := rfl
@[simp] theorem setPState_schedule (p : PState) (s : State) : (setPState p s).schedule = s.schedule := rfl

/-! setAcc -/

@[simp] theorem setAcc_estate (v : Byte) (s : State) : (setAcc v s).estate = s.estate := rfl
@[simp] theorem setAcc_opr (v : Byte) (s : State) : (setAcc v s).opr = s.opr := rfl
@[simp] theorem setAcc_rid (v : Byte) (s : State) : (setAcc v s).rid = s.rid := rfl
@[simp] theorem setAcc_ra (v : Byte) (s : State) : (setAcc v s).ra = s.ra := rfl
@[simp] theorem setAcc_rb (v : Byte) (s : State) : (setAcc v s).rb = s.rb := rfl
@[simp] theorem setAcc_first (v : Byte) (s : State) : (setAcc v s).first = s.first := rfl
@[simp] theorem setAcc_dir (v : Byte) (s : State) : (setAcc v s).dir = s.dir := rfl
@[simp] theorem setAcc_pstate (v : Byte) (s : State) : (setAcc v s).pstate = s.pstate := rfl
@[simp] theorem setAcc_acc (v : Byte) (s : State) : (setAcc v s).acc = v := rfl
@[simp] theorem setAcc_cnt (v : Byte) (s : State) : (setAcc v s).cnt = s.cnt := rfl
@[simp] theorem setAcc_flen (v : Byte) (s : State) : (setAcc v s).flen = s.flen := rfl
@[simp] theorem setAcc_pfail (v : Byte) (s : State) : (setAcc v s).pfail = s.pfail := rfl
@[simp] theorem setAcc_fb (v : Byte) (s : State) : (setAcc v s).fb = s.fb := rfl
@[simp] theorem setAcc_txpl (v : Byte) (s : State) : (setAcc v s).txpl = s.txpl := rfl
@[simp] theorem setAcc_done (v : Byte) (s : State) : (setAcc v s).done = s.done := rfl
@[simp] theorem setAcc_fail (v : Byte) (s : State) : (setAcc v s).fail = s.fail := rfl
@[simp] theorem setAcc_ovr (v : Byte) (s : State) : (setAcc v s).ovr = s.ovr := rfl
@[simp] theorem setAcc_code (v : Byte) (s : State) : (setAcc v s).code = s.code := rfl
@[simp] theorem setAcc_result (v : Byte) (s : State) : (setAcc v s).result = s.result := rfl
@[simp] theorem setAcc_rst (v : Byte) (s : State) : (setAcc v s).rst = s.rst := rfl
@[simp] theorem setAcc_rxStream (v : Byte) (s : State) : (setAcc v s).rxStream = s.rxStream := rfl
@[simp] theorem setAcc_flushDraws (v : Byte) (s : State) : (setAcc v s).flushDraws = s.flushDraws := rfl
@[simp] theorem setAcc_readCount (v : Byte) (s : State) : (setAcc v s).readCount = s.readCount := rfl
@[simp] theorem setAcc_flushCount (v : Byte) (s : State) : (setAcc v s).flushCount = s.flushCount := rfl
@[simp] theorem setAcc_resets (v : Byte) (s : State) : (setAcc v s).resets = s.resets := rfl
@[simp] theorem setAcc_busLog (v : Byte) (s : State) : (setAcc v s).busLog = s.busLog := rfl
@[simp] theorem setAcc_rdata (v : Byte) (s : State) : (setAcc v s).rdata = s.rdata := rfl
@[simp] theorem setAcc_schedule (v : Byte) (s : State) : (setAcc v s).schedule = s.schedule := rfl

/-! txplWrite -/

@[simp] theorem txplWrite_estate (i : Nat) (b : Byte) (s : State) : (txplWrite i b s).estate = s.estate := rfl
@[simp] theorem txplWrite_opr (i : Nat) (b : Byte) (s : State) : (txplWrite i b s).opr = s.opr := rfl
@[simp] theorem txplWrite_rid (i : Nat) (b : Byte) (s : State) : (txplWrite i b s).rid = s.rid := rfl
@[simp] theorem txplWrite_ra (i : Nat) (b : Byte) (s : State) : (txplWrite i b s).ra = s.ra := rfl
@[simp] theorem txplWrite_rb (i : Nat) (b : Byte) (s : State) : (txplWrite i b s).rb = s.rb := rfl
@[simp] theorem txplWrite_first (i : Nat) (b : Byte) (s : State) : (txplWrite i b s).first = s.first := rfl
@[simp] theorem txplWrite_dir (i : Nat) (b : Byte) (s : State) : (txplWrite i b s).dir = s.dir := rfl
@[simp] theorem txplWrite_pstate (i : Nat) (b : Byte) (s : State) : (txplWrite i b s).pstate = s.pstate := rfl
@[simp] theorem txplWrite_acc (i : Nat) (b : Byte) (s : State) : (txplWrite i b s).acc = s.acc := rfl
@[simp] theorem txplWrite_cnt (i : Nat) (b : Byte) (s : State) : (txplWrite i b s).cnt = s.cnt := rfl
@[simp] theorem txplWrite_flen (i : Nat) (b : Byte) (s : State) : (txplWrite i b s).flen = s.flen := rfl
@[simp] theorem txplWrite_pfail (i : Nat) (b : Byte) (s : State) : (txplWrite i b s).pfail = s.pfail := rfl
@[simp] theorem txplWrite_fb (i : Nat) (b : Byte) (s : State) : (txplWrite i b s).fb = s.fb := rfl
@[simp] theorem txplWrite_txpl (i : Nat) (b : Byte) (s : State) : (txplWrite i b s).txpl = Memory.write s.txpl i b := rfl
@[simp] theorem txplWrite_done (i : Nat) (b : Byte) (s : State) : (txplWrite i b s).done = s.done := rfl
@[simp] theorem txplWrite_fail (i : Nat) (b : Byte) (s : State) : (txplWrite i b s).fail = s.fail := rfl
@[simp] theorem txplWrite_ovr (i : Nat) (b : Byte) (s : State) : (txplWrite i b s).ovr = s.ovr := rfl
@[simp] theorem txplWrite_code (i : Nat) (b : Byte) (s : State) : (txplWrite i b s).code = s.code := rfl
@[simp] theorem txplWrite_result (i : Nat) (b : Byte) (s : State) : (txplWrite i b s).result = s.result := rfl
@[simp] theorem txplWrite_rst (i : Nat) (b : Byte) (s : State) : (txplWrite i b s).rst = s.rst := rfl
@[simp] theorem txplWrite_rxStream (i : Nat) (b : Byte) (s : State) : (txplWrite i b s).rxStream = s.rxStream := rfl
@[simp] theorem txplWrite_flushDraws (i : Nat) (b : Byte) (s : State) : (txplWrite i b s).flushDraws = s.flushDraws := rfl
@[simp] theorem txplWrite_readCount (i : Nat) (b : Byte) (s : State) : (txplWrite i b s).readCount = s.readCount := rfl
@[simp] theorem txplWrite_flushCount (i : Nat) (b : Byte) (s : State) : (txplWrite i b s).flushCount = s.flushCount := rfl
@[simp] theorem txplWrite_resets (i : Nat) (b : Byte) (s : State) : (txplWrite i b s).resets = s.resets := rfl
@[simp] theorem txplWrite_busLog (i : Nat) (b : Byte) (s : State) : (txplWrite i b s).busLog = s.busLog := rfl
@[simp] theorem txplWrite_rdata (i : Nat) (b : Byte) (s : State) : (txplWrite i b s).rdata = s.rdata := rfl
@[simp] theorem txplWrite_schedule (i : Nat) (b : Byte) (s : State) : (txplWrite i b s).schedule = s.schedule := rfl

/-! turnLine -/

@[simp] theorem turnLine_estate (d : Dir) (s : State) : (turnLine d s).estate = s.estate := rfl
@[simp] theorem turnLine_opr (d : Dir) (s : State) : (turnLine d s).opr = s.opr := rfl
@[simp] theorem turnLine_rid (d : Dir) (s : State) : (turnLine d s).rid = s.rid := rfl
@[simp] theorem turnLine_ra (d : Dir) (s : State) : (turnLine d s).ra = s.ra := rfl
@[simp] theorem turnLine_rb (d : Dir) (s : State) : (turnLine d s).rb = s.rb := rfl
@[simp] theorem turnLine_first (d : Dir) (s : State) : (turnLine d s).first = s.first := rfl
@[simp] theorem turnLine_dir (d : Dir) (s : State) : (turnLine d s).dir = d := rfl
@[simp] theorem turnLine_pstate (d : Dir) (s : State) : (turnLine d s).pstate = s.pstate := rfl
@[simp] theorem turnLine_acc (d : Dir) (s : State) : (turnLine d s).acc = s.acc := rfl
@[simp] theorem turnLine_cnt (d : Dir) (s : State) : (turnLine d s).cnt = s.cnt := rfl
@[simp] theorem turnLine_flen (d : Dir) (s : State) : (turnLine d s).flen = s.flen := rfl
@[simp] theorem turnLine_pfail (d : Dir) (s : State) : (turnLine d s).pfail = s.pfail := rfl
@[simp] theorem turnLine_fb (d : Dir) (s : State) : (turnLine d s).fb = s.fb := rfl
@[simp] theorem turnLine_txpl (d : Dir) (s : State) : (turnLine d s).txpl = s.txpl := rfl
@[simp] theorem turnLine_done (d : Dir) (s : State) : (turnLine d s).done = s.done := rfl
@[simp] theorem turnLine_fail (d : Dir) (s : State) : (turnLine d s).fail = s.fail := rfl
@[simp] theorem turnLine_ovr (d : Dir) (s : State) : (turnLine d s).ovr = s.ovr := rfl
@[simp] theorem turnLine_code (d : Dir) (s : State) : (turnLine d s).code = s.code := rfl
@[simp] theorem turnLine_result (d : Dir) (s : State) : (turnLine d s).result = s.result := rfl
@[simp] theorem turnLine_rst (d : Dir) (s : State) : (turnLine d s).rst = s.rst := rfl
@[simp] theorem turnLine_rxStream (d : Dir) (s : State) : (turnLine d s).rxStream = s.rxStream := rfl
@[simp] theorem turnLine_flushDraws (d : Dir) (s : State) : (turnLine d s).flushDraws = s.flushDraws := rfl
@[simp] theorem turnLine_readCount (d : Dir) (s : State) : (turnLine d s).readCount = s.readCount := rfl
@[simp] theorem turnLine_flushCount (d : Dir) (s : State) : (turnLine d s).flushCount = s.flushCount := rfl
@[simp] theorem turnLine_resets (d : Dir) (s : State) : (turnLine d s).resets = s.resets := rfl
@[simp] theorem turnLine_busLog (d : Dir) (s : State) : (turnLine d s).busLog = .setDir d :: s.busLog := rfl
@[simp] theorem turnLine_rdata (d : Dir) (s : State) : (turnLine d s).rdata = s.rdata := rfl
@[simp] theorem turnLine_schedule (d : Dir) (s : State) : (turnLine d s).schedule = s.schedule := rfl

/-! tSend -/

@[simp] theorem tSend_estate (f : List Byte) (s : State) : (tSend f s).estate = s.estate := rfl
@[simp] theorem tSend_opr (f : List Byte) (s : State) : (tSend f s).opr = s.opr := rfl
@[simp] theorem tSend_rid (f : List Byte) (s : State) : (tSend f s).rid = s.rid := rfl
@[simp] theorem tSend_ra (f : List Byte) (s : State) : (tSend f s).ra = s.ra := rfl
@[simp] theorem tSend_rb (f : List Byte) (s : State) : (tSend f s).rb = s.rb := rfl
@[simp] theorem tSend_first (f : List Byte) (s : State) : (tSend f s).first = s.first := rfl
@[simp] theorem tSend_dir (f : List Byte) (s : State) : (tSend f s).dir = s.dir := rfl
@[simp] theorem tSend_pstate (f : List Byte) (s : State) : (tSend f s).pstate = s.pstate := rfl
@[simp] theorem tSend_acc (f : List Byte) (s : State) : (tSend f s).acc = s.acc := rfl
@[simp] theorem tSend_cnt (f : List Byte) (s : State) : (tSend f s).cnt = s.cnt := rfl
@[simp] theorem tSend_flen (f : List Byte) (s : State) : (tSend f s).flen = s.flen := rfl
@[simp] theorem tSend_pfail (f : List Byte) (s : State) : (tSend f s).pfail = s.pfail := rfl
@[simp] theorem tSend_fb (f : List Byte) (s : State) : (tSend f s).fb = s.fb := rfl
@[simp] theorem tSend_txpl (f : List Byte) (s : State) : (tSend f s).txpl = s.txpl := rfl
@[simp] theorem tSend_done (f : List Byte) (s : State) : (tSend f s).done = s.done := rfl
@[simp] theorem tSend_fail (f : List Byte) (s : State) : (tSend f s).fail = s.fail := rfl
@[simp] theorem tSend_ovr (f : List Byte) (s : State) : (tSend f s).ovr = s.ovr := rfl
@[simp] theorem tSend_code (f : List Byte) (s : State) : (tSend f s).code = s.code := rfl
@[simp] theorem tSend_result (f : List Byte) (s : State) : (tSend f s).result = s.result := rfl
@[simp] theorem tSend_rst (f : List Byte) (s : State) : (tSend f s).rst = s.rst := rfl
@[simp] theorem tSend_rxStream (f : List Byte) (s : State) : (tSend f s).rxStream = s.rxStream := rfl
@[simp] theorem tSend_flushDraws (f : List Byte) (s : State) : (tSend f s).flushDraws = s.flushDraws := rfl
@[simp] theorem tSend_readCount (f : List Byte) (s : State) : (tSend f s).readCount = s.readCount := rfl
@[simp] theorem tSend_flushCount (f : List Byte) (s : State) : (tSend f s).flushCount = s.flushCount := rfl
@[simp] theorem tSend_resets (f : List Byte) (s : State) : (tSend f s).resets = s.resets := rfl
@[simp] theorem tSend_busLog (f : List Byte) (s : State) : (tSend f s).busLog = .send f :: s.busLog := rfl
@[simp] theorem tSend_rdata (f : List Byte) (s : State) : (tSend f s).rdata = s.rdata := rfl
@[simp] theorem tSend_schedule (f : List Byte) (s : State) : (tSend f s).schedule = s.schedule := rfl

/-! tFlush -/

@[simp] theorem tFlush_estate (s : State) : (tFlush s).estate = s.estate := rfl
@[simp] theorem tFlush_opr (s : State) : (tFlush s).opr = s.opr := rfl
@[simp] theorem tFlush_rid (s : State) : (tFlush s).rid = s.rid := rfl
@[simp] theorem tFlush_ra (s : State) : (tFlush s).ra = s.ra := rfl
@[simp] theorem tFlush_rb (s : State) : (tFlush s).rb = s.rb := rfl
@[simp] theorem tFlush_first (s : State) : (tFlush s).first = s.first := rfl
@[simp] theorem tFlush_dir (s : State) : (tFlush s).dir = s.dir := rfl
@[simp] theorem tFlush_pstate (s : State) : (tFlush s).pstate = s.pstate := rfl
@[simp] theorem tFlush_acc (s : State) : (tFlush s).acc = s.acc := rfl
@[simp] theorem tFlush_cnt (s : State) : (tFlush s).cnt = s.cnt := rfl
@[simp] theorem tFlush_flen (s : State) : (tFlush s).flen = s.flen := rfl
@[simp] theorem tFlush_pfail (s : State) : (tFlush s).pfail = s.pfail := rfl
@[simp] theorem tFlush_fb (s : State) : (tFlush s).fb = s.fb := rfl
@[simp] theorem tFlush_txpl (s : State) : (tFlush s).txpl = s.txpl := rfl
@[simp] theorem tFlush_done (s : State) : (tFlush s).done = s.done := rfl
@[simp] theorem tFlush_fail (s : State) : (tFlush s).fail = s.fail := rfl
@[simp] theorem tFlush_ovr (s : State) : (tFlush s).ovr = s.ovr := rfl
@[simp] theorem tFlush_code (s : State) : (tFlush s).code = s.code := rfl
@[simp] theorem tFlush_result (s : State) : (tFlush s).result = s.result := rfl
@[simp] theorem tFlush_rst (s : State) : (tFlush s).rst = s.rst := rfl
@[simp] theorem tFlush_rxStream (s : State) : (tFlush s).rxStream = s.rxStream.drop (flushAmount s) := rfl
@[simp] theorem tFlush_flushDraws (s : State) : (tFlush s).flushDraws = s.flushDraws.tail := rfl
@[simp] theorem tFlush_readCount (s : State) : (tFlush s).readCount = s.readCount := rfl
@[simp] theorem tFlush_flushCount (s : State) : (tFlush s).flushCount = if s.flushDraws = [] then s.flushCount + 1 else s.flushCount := rfl
@[simp] theorem tFlush_resets (s : State) : (tFlush s).resets = s.resets := rfl
@[simp] theorem tFlush_busLog (s : State) : (tFlush s).busLog = .flush :: s.busLog := rfl
@[simp] theorem tFlush_rdata (s : State) : (tFlush s).rdata = s.rdata := rfl
@[simp] theorem tFlush_schedule (s : State) : (tFlush s).schedule = s.schedule := rfl

/-! tRead -/

@[simp] theorem tRead_estate (s : State) : (tRead s).estate = s.estate := rfl
@[simp] theorem tRead_opr (s : State) : (tRead s).opr = s.opr := rfl
@[simp] theorem tRead_rid (s : State) : (tRead s).rid = s.rid := rfl
@[simp] theorem tRead_ra (s : State) : (tRead s).ra = s.ra := rfl
@[simp] theorem tRead_rb (s : State) : (tRead s).rb = s.rb := rfl
@[simp] theorem tRead_first (s : State) : (tRead s).first = s.first := rfl
@[simp] theorem tRead_dir (s : State) : (tRead s).dir = s.dir := rfl
@[simp] theorem tRead_pstate (s : State) : (tRead s).pstate = s.pstate := rfl
@[simp] theorem tRead_acc (s : State) : (tRead s).acc = s.acc := rfl
@[simp] theorem tRead_cnt (s : State) : (tRead s).cnt = s.cnt := rfl
@[simp] theorem tRead_flen (s : State) : (tRead s).flen = s.flen := rfl
@[simp] theorem tRead_pfail (s : State) : (tRead s).pfail = s.pfail := rfl
@[simp] theorem tRead_fb (s : State) : (tRead s).fb = s.fb := rfl
@[simp] theorem tRead_txpl (s : State) : (tRead s).txpl = s.txpl := rfl
@[simp] theorem tRead_done (s : State) : (tRead s).done = s.done := rfl
@[simp] theorem tRead_fail (s : State) : (tRead s).fail = s.fail := rfl
@[simp] theorem tRead_ovr (s : State) : (tRead s).ovr = s.ovr := rfl
@[simp] theorem tRead_code (s : State) : (tRead s).code = s.code := rfl
@[simp] theorem tRead_result (s : State) : (tRead s).result = s.result := rfl
@[simp] theorem tRead_rst (s : State) : (tRead s).rst = s.rst := rfl
@[simp] theorem tRead_rxStream (s : State) : (tRead s).rxStream = s.rxStream.tail := rfl
@[simp] theorem tRead_flushDraws (s : State) : (tRead s).flushDraws = s.flushDraws := rfl
@[simp] theorem tRead_readCount (s : State) : (tRead s).readCount = if s.rxStream = [] then s.readCount + 1 else s.readCount := rfl
@[simp] theorem tRead_flushCount (s : State) : (tRead s).flushCount = s.flushCount := rfl
@[simp] theorem tRead_resets (s : State) : (tRead s).resets = s.resets := rfl
@[simp] theorem tRead_busLog (s : State) : (tRead s).busLog = .read Config.tByteMs :: s.busLog := rfl
@[simp] theorem tRead_rdata (s : State) : (tRead s).rdata = s.rdata := rfl
@[simp] theorem tRead_schedule (s : State) : (tRead s).schedule = s.schedule := rfl

/-! finishOk -/

@[simp] theorem finishOk_estate (v : Half) (s : State) : (finishOk v s).estate = .idle := rfl
@[simp] theorem finishOk_opr (v : Half) (s : State) : (finishOk v s).opr = s.opr := rfl
@[simp] theorem finishOk_rid (v : Half) (s : State) : (finishOk v s).rid = s.rid := rfl
@[simp] theorem finishOk_ra (v : Half) (s : State) : (finishOk v s).ra = s.ra := rfl
@[simp] theorem finishOk_rb (v : Half) (s : State) : (finishOk v s).rb = s.rb := rfl
@[simp] theorem finishOk_first (v : Half) (s : State) : (finishOk v s).first = s.first := rfl
@[simp] theorem finishOk_dir (v : Half) (s : State) : (finishOk v s).dir = s.dir := rfl
@[simp] theorem finishOk_pstate (v : Half) (s : State) : (finishOk v s).pstate = s.pstate := rfl
@[simp] theorem finishOk_acc (v : Half) (s : State) : (finishOk v s).acc = s.acc := rfl
@[simp] theorem finishOk_cnt (v : Half) (s : State) : (finishOk v s).cnt = s.cnt := rfl
@[simp] theorem finishOk_flen (v : Half) (s : State) : (finishOk v s).flen = s.flen := rfl
@[simp] theorem finishOk_pfail (v : Half) (s : State) : (finishOk v s).pfail = s.pfail := rfl
@[simp] theorem finishOk_fb (v : Half) (s : State) : (finishOk v s).fb = s.fb := rfl
@[simp] theorem finishOk_txpl (v : Half) (s : State) : (finishOk v s).txpl = s.txpl := rfl
@[simp] theorem finishOk_done (v : Half) (s : State) : (finishOk v s).done = true := rfl
@[simp] theorem finishOk_fail (v : Half) (s : State) : (finishOk v s).fail = false := rfl
@[simp] theorem finishOk_ovr (v : Half) (s : State) : (finishOk v s).ovr = s.ovr := rfl
@[simp] theorem finishOk_code (v : Half) (s : State) : (finishOk v s).code = .ok := rfl
@[simp] theorem finishOk_result (v : Half) (s : State) : (finishOk v s).result = v := rfl
@[simp] theorem finishOk_rst (v : Half) (s : State) : (finishOk v s).rst = s.rst := rfl
@[simp] theorem finishOk_rxStream (v : Half) (s : State) : (finishOk v s).rxStream = s.rxStream := rfl
@[simp] theorem finishOk_flushDraws (v : Half) (s : State) : (finishOk v s).flushDraws = s.flushDraws := rfl
@[simp] theorem finishOk_readCount (v : Half) (s : State) : (finishOk v s).readCount = s.readCount := rfl
@[simp] theorem finishOk_flushCount (v : Half) (s : State) : (finishOk v s).flushCount = s.flushCount := rfl
@[simp] theorem finishOk_resets (v : Half) (s : State) : (finishOk v s).resets = s.resets := rfl
@[simp] theorem finishOk_busLog (v : Half) (s : State) : (finishOk v s).busLog = s.busLog := rfl
@[simp] theorem finishOk_rdata (v : Half) (s : State) : (finishOk v s).rdata = s.rdata := rfl
@[simp] theorem finishOk_schedule (v : Half) (s : State) : (finishOk v s).schedule = s.schedule := rfl

/-! takeError -/

@[simp] theorem takeError_estate (c : Code) (s : State) : (takeError c s).estate = s.estate := rfl
@[simp] theorem takeError_opr (c : Code) (s : State) : (takeError c s).opr = s.opr := rfl
@[simp] theorem takeError_rid (c : Code) (s : State) : (takeError c s).rid = s.rid := rfl
@[simp] theorem takeError_ra (c : Code) (s : State) : (takeError c s).ra = s.ra := rfl
@[simp] theorem takeError_rb (c : Code) (s : State) : (takeError c s).rb = s.rb := rfl
@[simp] theorem takeError_first (c : Code) (s : State) : (takeError c s).first = s.first := rfl
@[simp] theorem takeError_dir (c : Code) (s : State) : (takeError c s).dir = s.dir := rfl
@[simp] theorem takeError_pstate (c : Code) (s : State) : (takeError c s).pstate = s.pstate := rfl
@[simp] theorem takeError_acc (c : Code) (s : State) : (takeError c s).acc = s.acc := rfl
@[simp] theorem takeError_cnt (c : Code) (s : State) : (takeError c s).cnt = s.cnt := rfl
@[simp] theorem takeError_flen (c : Code) (s : State) : (takeError c s).flen = s.flen := rfl
@[simp] theorem takeError_pfail (c : Code) (s : State) : (takeError c s).pfail = s.pfail := rfl
@[simp] theorem takeError_fb (c : Code) (s : State) : (takeError c s).fb = s.fb := rfl
@[simp] theorem takeError_txpl (c : Code) (s : State) : (takeError c s).txpl = s.txpl := rfl
@[simp] theorem takeError_done (c : Code) (s : State) : (takeError c s).done = true := rfl
@[simp] theorem takeError_fail (c : Code) (s : State) : (takeError c s).fail = true := rfl
@[simp] theorem takeError_ovr (c : Code) (s : State) : (takeError c s).ovr = s.ovr := rfl
@[simp] theorem takeError_code (c : Code) (s : State) : (takeError c s).code = c := rfl
@[simp] theorem takeError_result (c : Code) (s : State) : (takeError c s).result = Config.failSentinel := rfl
@[simp] theorem takeError_rst (c : Code) (s : State) : (takeError c s).rst = s.rst := rfl
@[simp] theorem takeError_rxStream (c : Code) (s : State) : (takeError c s).rxStream = s.rxStream := rfl
@[simp] theorem takeError_flushDraws (c : Code) (s : State) : (takeError c s).flushDraws = s.flushDraws := rfl
@[simp] theorem takeError_readCount (c : Code) (s : State) : (takeError c s).readCount = s.readCount := rfl
@[simp] theorem takeError_flushCount (c : Code) (s : State) : (takeError c s).flushCount = s.flushCount := rfl
@[simp] theorem takeError_resets (c : Code) (s : State) : (takeError c s).resets = s.resets := rfl
@[simp] theorem takeError_busLog (c : Code) (s : State) : (takeError c s).busLog = s.busLog := rfl
@[simp] theorem takeError_rdata (c : Code) (s : State) : (takeError c s).rdata = s.rdata := rfl
@[simp] theorem takeError_schedule (c : Code) (s : State) : (takeError c s).schedule = s.schedule := rfl

/-! finishFail -/

@[simp] theorem finishFail_estate (c : Code) (s : State) : (finishFail c s).estate = .idle := rfl
@[simp] theorem finishFail_opr (c : Code) (s : State) : (finishFail c s).opr = s.opr := rfl
@[simp] theorem finishFail_rid (c : Code) (s : State) : (finishFail c s).rid = s.rid := rfl
@[simp] theorem finishFail_ra (c : Code) (s : State) : (finishFail c s).ra = s.ra := rfl
@[simp] theorem finishFail_rb (c : Code) (s : State) : (finishFail c s).rb = s.rb := rfl
@[simp] theorem finishFail_first (c : Code) (s : State) : (finishFail c s).first = s.first := rfl
@[simp] theorem finishFail_dir (c : Code) (s : State) : (finishFail c s).dir = s.dir := rfl
@[simp] theorem finishFail_pstate (c : Code) (s : State) : (finishFail c s).pstate = s.pstate := rfl
@[simp] theorem finishFail_acc (c : Code) (s : State) : (finishFail c s).acc = s.acc := rfl
@[simp] theorem finishFail_cnt (c : Code) (s : State) : (finishFail c s).cnt = s.cnt := rfl
@[simp] theorem finishFail_flen (c : Code) (s : State) : (finishFail c s).flen = s.flen := rfl
@[simp] theorem finishFail_pfail (c : Code) (s : State) : (finishFail c s).pfail = s.pfail := rfl
@[simp] theorem finishFail_fb (c : Code) (s : State) : (finishFail c s).fb = s.fb := rfl
@[simp] theorem finishFail_txpl (c : Code) (s : State) : (finishFail c s).txpl = s.txpl := rfl
@[simp] theorem finishFail_done (c : Code) (s : State) : (finishFail c s).done = true := rfl
@[simp] theorem finishFail_fail (c : Code) (s : State) : (finishFail c s).fail = true := rfl
@[simp] theorem finishFail_ovr (c : Code) (s : State) : (finishFail c s).ovr = s.ovr := rfl
@[simp] theorem finishFail_code (c : Code) (s : State) : (finishFail c s).code = c := rfl
@[simp] theorem finishFail_result (c : Code) (s : State) : (finishFail c s).result = Config.failSentinel := rfl
@[simp] theorem finishFail_rst (c : Code) (s : State) : (finishFail c s).rst = s.rst := rfl
@[simp] theorem finishFail_rxStream (c : Code) (s : State) : (finishFail c s).rxStream = s.rxStream := rfl
@[simp] theorem finishFail_flushDraws (c : Code) (s : State) : (finishFail c s).flushDraws = s.flushDraws := rfl
@[simp] theorem finishFail_readCount (c : Code) (s : State) : (finishFail c s).readCount = s.readCount := rfl
@[simp] theorem finishFail_flushCount (c : Code) (s : State) : (finishFail c s).flushCount = s.flushCount := rfl
@[simp] theorem finishFail_resets (c : Code) (s : State) : (finishFail c s).resets = s.resets := rfl
@[simp] theorem finishFail_busLog (c : Code) (s : State) : (finishFail c s).busLog = s.busLog := rfl
@[simp] theorem finishFail_rdata (c : Code) (s : State) : (finishFail c s).rdata = s.rdata := rfl
@[simp] theorem finishFail_schedule (c : Code) (s : State) : (finishFail c s).schedule = s.schedule := rfl

/-! clearOverrun -/

@[simp] theorem clearOverrun_estate (s : State) : (clearOverrun s).estate = s.estate := rfl
@[simp] theorem clearOverrun_opr (s : State) : (clearOverrun s).opr = s.opr := rfl
@[simp] theorem clearOverrun_rid (s : State) : (clearOverrun s).rid = s.rid := rfl
@[simp] theorem clearOverrun_ra (s : State) : (clearOverrun s).ra = s.ra := rfl
@[simp] theorem clearOverrun_rb (s : State) : (clearOverrun s).rb = s.rb := rfl
@[simp] theorem clearOverrun_first (s : State) : (clearOverrun s).first = s.first := rfl
@[simp] theorem clearOverrun_dir (s : State) : (clearOverrun s).dir = s.dir := rfl
@[simp] theorem clearOverrun_pstate (s : State) : (clearOverrun s).pstate = s.pstate := rfl
@[simp] theorem clearOverrun_acc (s : State) : (clearOverrun s).acc = s.acc := rfl
@[simp] theorem clearOverrun_cnt (s : State) : (clearOverrun s).cnt = s.cnt := rfl
@[simp] theorem clearOverrun_flen (s : State) : (clearOverrun s).flen = s.flen := rfl
@[simp] theorem clearOverrun_pfail (s : State) : (clearOverrun s).pfail = s.pfail := rfl
@[simp] theorem clearOverrun_fb (s : State) : (clearOverrun s).fb = s.fb := rfl
@[simp] theorem clearOverrun_txpl (s : State) : (clearOverrun s).txpl = s.txpl := rfl
@[simp] theorem clearOverrun_done (s : State) : (clearOverrun s).done = s.done := rfl
@[simp] theorem clearOverrun_fail (s : State) : (clearOverrun s).fail = s.fail := rfl
@[simp] theorem clearOverrun_ovr (s : State) : (clearOverrun s).ovr = false := rfl
@[simp] theorem clearOverrun_code (s : State) : (clearOverrun s).code = s.code := rfl
@[simp] theorem clearOverrun_result (s : State) : (clearOverrun s).result = s.result := rfl
@[simp] theorem clearOverrun_rst (s : State) : (clearOverrun s).rst = s.rst := rfl
@[simp] theorem clearOverrun_rxStream (s : State) : (clearOverrun s).rxStream = s.rxStream := rfl
@[simp] theorem clearOverrun_flushDraws (s : State) : (clearOverrun s).flushDraws = s.flushDraws := rfl
@[simp] theorem clearOverrun_readCount (s : State) : (clearOverrun s).readCount = s.readCount := rfl
@[simp] theorem clearOverrun_flushCount (s : State) : (clearOverrun s).flushCount = s.flushCount := rfl
@[simp] theorem clearOverrun_resets (s : State) : (clearOverrun s).resets = s.resets := rfl
@[simp] theorem clearOverrun_busLog (s : State) : (clearOverrun s).busLog = s.busLog := rfl
@[simp] theorem clearOverrun_rdata (s : State) : (clearOverrun s).rdata = s.rdata := rfl
@[simp] theorem clearOverrun_schedule (s : State) : (clearOverrun s).schedule = s.schedule := rfl

/-! requestError -/

@[simp] theorem requestError_estate (c : Code) (s : State) : (requestError c s).estate = s.estate := rfl
@[simp] theorem requestError_opr (c : Code) (s : State) : (requestError c s).opr = s.opr := rfl
@[simp] theorem requestError_rid (c : Code) (s : State) : (requestError c s).rid = s.rid := rfl
@[simp] theorem requestError_ra (c : Code) (s : State) : (requestError c s).ra = s.ra := rfl
@[simp] theorem requestError_rb (c : Code) (s : State) : (requestError c s).rb = s.rb := rfl
@[simp] theorem requestError_first (c : Code) (s : State) : (requestError c s).first = s.first := rfl
@[simp] theorem requestError_dir (c : Code) (s : State) : (requestError c s).dir = s.dir := rfl
@[simp] theorem requestError_pstate (c : Code) (s : State) : (requestError c s).pstate = s.pstate := rfl
@[simp] theorem requestError_acc (c : Code) (s : State) : (requestError c s).acc = s.acc := rfl
@[simp] theorem requestError_cnt (c : Code) (s : State) : (requestError c s).cnt = s.cnt := rfl
@[simp] theorem requestError_flen (c : Code) (s : State) : (requestError c s).flen = s.flen := rfl
@[simp] theorem requestError_pfail (c : Code) (s : State) : (requestError c s).pfail = s.pfail := rfl
@[simp] theorem requestError_fb (c : Code) (s : State) : (requestError c s).fb = s.fb := rfl
@[simp] theorem requestError_txpl (c : Code) (s : State) : (requestError c s).txpl = s.txpl := rfl
@[simp] theorem requestError_done (c : Code) (s : State) : (requestError c s).done = true := rfl
@[simp] theorem requestError_fail (c : Code) (s : State) : (requestError c s).fail = true := rfl
@[simp] theorem requestError_ovr (c : Code) (s : State) : (requestError c s).ovr = false := rfl
@[simp] theorem requestError_code (c : Code) (s : State) : (requestError c s).code = c := rfl
@[simp] theorem requestError_result (c : Code) (s : State) : (requestError c s).result = Config.failSentinel := rfl
@[simp] theorem requestError_rst (c : Code) (s : State) : (requestError c s).rst = s.rst := rfl
@[simp] theorem requestError_rxStream (c : Code) (s : State) : (requestError c s).rxStream = s.rxStream := rfl
@[simp] theorem requestError_flushDraws (c : Code) (s : State) : (requestError c s).flushDraws = s.flushDraws := rfl
@[simp] theorem requestError_readCount (c : Code) (s : State) : (requestError c s).readCount = s.readCount := rfl
@[simp] theorem requestError_flushCount (c : Code) (s : State) : (requestError c s).flushCount = s.flushCount := rfl
@[simp] theorem requestError_resets (c : Code) (s : State) : (requestError c s).resets = s.resets := rfl
@[simp] theorem requestError_busLog (c : Code) (s : State) : (requestError c s).busLog = s.busLog := rfl
@[simp] theorem requestError_rdata (c : Code) (s : State) : (requestError c s).rdata = s.rdata := rfl
@[simp] theorem requestError_schedule (c : Code) (s : State) : (requestError c s).schedule = s.schedule := rfl

/-! parseFail -/

@[simp] theorem parseFail_estate (c : PFail) (s : State) : (parseFail c s).estate = s.estate := rfl
@[simp] theorem parseFail_opr (c : PFail) (s : State) : (parseFail c s).opr = s.opr := rfl
@[simp] theorem parseFail_rid (c : PFail) (s : State) : (parseFail c s).rid = s.rid := rfl
@[simp] theorem parseFail_ra (c : PFail) (s : State) : (parseFail c s).ra = s.ra := rfl
@[simp] theorem parseFail_rb (c : PFail) (s : State) : (parseFail c s).rb = s.rb := rfl
@[simp] theorem parseFail_first (c : PFail) (s : State) : (parseFail c s).first = s.first := rfl
@[simp] theorem parseFail_dir (c : PFail) (s : State) : (parseFail c s).dir = s.dir := rfl
@[simp] theorem parseFail_pstate (c : PFail) (s : State) : (parseFail c s).pstate = .failed := rfl
@[simp] theorem parseFail_acc (c : PFail) (s : State) : (parseFail c s).acc = s.acc := rfl
@[simp] theorem parseFail_cnt (c : PFail) (s : State) : (parseFail c s).cnt = s.cnt := rfl
@[simp] theorem parseFail_flen (c : PFail) (s : State) : (parseFail c s).flen = s.flen := rfl
@[simp] theorem parseFail_pfail (c : PFail) (s : State) : (parseFail c s).pfail = c := rfl
@[simp] theorem parseFail_fb (c : PFail) (s : State) : (parseFail c s).fb = s.fb := rfl
@[simp] theorem parseFail_txpl (c : PFail) (s : State) : (parseFail c s).txpl = s.txpl := rfl
@[simp] theorem parseFail_done (c : PFail) (s : State) : (parseFail c s).done = s.done := rfl
@[simp] theorem parseFail_fail (c : PFail) (s : State) : (parseFail c s).fail = s.fail := rfl
@[simp] theorem parseFail_ovr (c : PFail) (s : State) : (parseFail c s).ovr = s.ovr := rfl
@[simp] theorem parseFail_code (c : PFail) (s : State) : (parseFail c s).code = s.code := rfl
@[simp] theorem parseFail_result (c : PFail) (s : State) : (parseFail c s).result = s.result := rfl
@[simp] theorem parseFail_rst (c : PFail) (s : State) : (parseFail c s).rst = s.rst := rfl
@[simp] theorem parseFail_rxStream (c : PFail) (s : State) : (parseFail c s).rxStream = s.rxStream := rfl
@[simp] theorem parseFail_flushDraws (c : PFail) (s : State) : (parseFail c s).flushDraws = s.flushDraws := rfl
@[simp] theorem parseFail_readCount (c : PFail) (s : State) : (parseFail c s).readCount = s.readCount := rfl
@[simp] theorem parseFail_flushCount (c : PFail) (s : State) : (parseFail c s).flushCount = s.flushCount := rfl
@[simp] theorem parseFail_resets (c : PFail) (s : State) : (parseFail c s).resets = s.resets := rfl
@[simp] theorem parseFail_busLog (c : PFail) (s : State) : (parseFail c s).busLog = s.busLog := rfl
@[simp] theorem parseFail_rdata (c : PFail) (s : State) : (parseFail c s).rdata = s.rdata := rfl
@[simp] theorem parseFail_schedule (c : PFail) (s : State) : (parseFail c s).schedule = s.schedule := rfl

/-! accept -/

@[simp] theorem accept_estate (op : BitVec 4) (id : Byte) (a b : Half) (e : EState) (s : State) : (accept op id a b e s).estate = e := rfl
@[simp] theorem accept_opr (op : BitVec 4) (id : Byte) (a b : Half) (e : EState) (s : State) : (accept op id a b e s).opr = op := rfl
@[simp] theorem accept_rid (op : BitVec 4) (id : Byte) (a b : Half) (e : EState) (s : State) : (accept op id a b e s).rid = id := rfl
@[simp] theorem accept_ra (op : BitVec 4) (id : Byte) (a b : Half) (e : EState) (s : State) : (accept op id a b e s).ra = a := rfl
@[simp] theorem accept_rb (op : BitVec 4) (id : Byte) (a b : Half) (e : EState) (s : State) : (accept op id a b e s).rb = b := rfl
@[simp] theorem accept_first (op : BitVec 4) (id : Byte) (a b : Half) (e : EState) (s : State) : (accept op id a b e s).first = true := rfl
@[simp] theorem accept_dir (op : BitVec 4) (id : Byte) (a b : Half) (e : EState) (s : State) : (accept op id a b e s).dir = s.dir := rfl
@[simp] theorem accept_pstate (op : BitVec 4) (id : Byte) (a b : Half) (e : EState) (s : State) : (accept op id a b e s).pstate = s.pstate := rfl
@[simp] theorem accept_acc (op : BitVec 4) (id : Byte) (a b : Half) (e : EState) (s : State) : (accept op id a b e s).acc = s.acc := rfl
@[simp] theorem accept_cnt (op : BitVec 4) (id : Byte) (a b : Half) (e : EState) (s : State) : (accept op id a b e s).cnt = s.cnt := rfl
@[simp] theorem accept_flen (op : BitVec 4) (id : Byte) (a b : Half) (e : EState) (s : State) : (accept op id a b e s).flen = s.flen := rfl
@[simp] theorem accept_pfail (op : BitVec 4) (id : Byte) (a b : Half) (e : EState) (s : State) : (accept op id a b e s).pfail = s.pfail := rfl
@[simp] theorem accept_fb (op : BitVec 4) (id : Byte) (a b : Half) (e : EState) (s : State) : (accept op id a b e s).fb = s.fb := rfl
@[simp] theorem accept_txpl (op : BitVec 4) (id : Byte) (a b : Half) (e : EState) (s : State) : (accept op id a b e s).txpl = s.txpl := rfl
@[simp] theorem accept_done (op : BitVec 4) (id : Byte) (a b : Half) (e : EState) (s : State) : (accept op id a b e s).done = false := rfl
@[simp] theorem accept_fail (op : BitVec 4) (id : Byte) (a b : Half) (e : EState) (s : State) : (accept op id a b e s).fail = false := rfl
@[simp] theorem accept_ovr (op : BitVec 4) (id : Byte) (a b : Half) (e : EState) (s : State) : (accept op id a b e s).ovr = false := rfl
@[simp] theorem accept_code (op : BitVec 4) (id : Byte) (a b : Half) (e : EState) (s : State) : (accept op id a b e s).code = .ok := rfl
@[simp] theorem accept_result (op : BitVec 4) (id : Byte) (a b : Half) (e : EState) (s : State) : (accept op id a b e s).result = 0 := rfl
@[simp] theorem accept_rst (op : BitVec 4) (id : Byte) (a b : Half) (e : EState) (s : State) : (accept op id a b e s).rst = s.rst := rfl
@[simp] theorem accept_rxStream (op : BitVec 4) (id : Byte) (a b : Half) (e : EState) (s : State) : (accept op id a b e s).rxStream = s.rxStream := rfl
@[simp] theorem accept_flushDraws (op : BitVec 4) (id : Byte) (a b : Half) (e : EState) (s : State) : (accept op id a b e s).flushDraws = s.flushDraws := rfl
@[simp] theorem accept_readCount (op : BitVec 4) (id : Byte) (a b : Half) (e : EState) (s : State) : (accept op id a b e s).readCount = s.readCount := rfl
@[simp] theorem accept_flushCount (op : BitVec 4) (id : Byte) (a b : Half) (e : EState) (s : State) : (accept op id a b e s).flushCount = s.flushCount := rfl
@[simp] theorem accept_resets (op : BitVec 4) (id : Byte) (a b : Half) (e : EState) (s : State) : (accept op id a b e s).resets = s.resets := rfl
@[simp] theorem accept_busLog (op : BitVec 4) (id : Byte) (a b : Half) (e : EState) (s : State) : (accept op id a b e s).busLog = s.busLog := rfl
@[simp] theorem accept_rdata (op : BitVec 4) (id : Byte) (a b : Half) (e : EState) (s : State) : (accept op id a b e s).rdata = s.rdata := rfl
@[simp] theorem accept_schedule (op : BitVec 4) (id : Byte) (a b : Half) (e : EState) (s : State) : (accept op id a b e s).schedule = s.schedule := rfl

/-! setOverrun -/

@[simp] theorem setOverrun_estate (s : State) : (setOverrun s).estate = s.estate := rfl
@[simp] theorem setOverrun_opr (s : State) : (setOverrun s).opr = s.opr := rfl
@[simp] theorem setOverrun_rid (s : State) : (setOverrun s).rid = s.rid := rfl
@[simp] theorem setOverrun_ra (s : State) : (setOverrun s).ra = s.ra := rfl
@[simp] theorem setOverrun_rb (s : State) : (setOverrun s).rb = s.rb := rfl
@[simp] theorem setOverrun_first (s : State) : (setOverrun s).first = s.first := rfl
@[simp] theorem setOverrun_dir (s : State) : (setOverrun s).dir = s.dir := rfl
@[simp] theorem setOverrun_pstate (s : State) : (setOverrun s).pstate = s.pstate := rfl
@[simp] theorem setOverrun_acc (s : State) : (setOverrun s).acc = s.acc := rfl
@[simp] theorem setOverrun_cnt (s : State) : (setOverrun s).cnt = s.cnt := rfl
@[simp] theorem setOverrun_flen (s : State) : (setOverrun s).flen = s.flen := rfl
@[simp] theorem setOverrun_pfail (s : State) : (setOverrun s).pfail = s.pfail := rfl
@[simp] theorem setOverrun_fb (s : State) : (setOverrun s).fb = s.fb := rfl
@[simp] theorem setOverrun_txpl (s : State) : (setOverrun s).txpl = s.txpl := rfl
@[simp] theorem setOverrun_done (s : State) : (setOverrun s).done = s.done := rfl
@[simp] theorem setOverrun_fail (s : State) : (setOverrun s).fail = s.fail := rfl
@[simp] theorem setOverrun_ovr (s : State) : (setOverrun s).ovr = true := rfl
@[simp] theorem setOverrun_code (s : State) : (setOverrun s).code = s.code := rfl
@[simp] theorem setOverrun_result (s : State) : (setOverrun s).result = s.result := rfl
@[simp] theorem setOverrun_rst (s : State) : (setOverrun s).rst = s.rst := rfl
@[simp] theorem setOverrun_rxStream (s : State) : (setOverrun s).rxStream = s.rxStream := rfl
@[simp] theorem setOverrun_flushDraws (s : State) : (setOverrun s).flushDraws = s.flushDraws := rfl
@[simp] theorem setOverrun_readCount (s : State) : (setOverrun s).readCount = s.readCount := rfl
@[simp] theorem setOverrun_flushCount (s : State) : (setOverrun s).flushCount = s.flushCount := rfl
@[simp] theorem setOverrun_resets (s : State) : (setOverrun s).resets = s.resets := rfl
@[simp] theorem setOverrun_busLog (s : State) : (setOverrun s).busLog = s.busLog := rfl
@[simp] theorem setOverrun_rdata (s : State) : (setOverrun s).rdata = s.rdata := rfl
@[simp] theorem setOverrun_schedule (s : State) : (setOverrun s).schedule = s.schedule := rfl

/-! startAttempt -/

@[simp] theorem startAttempt_estate (s : State) : (startAttempt s).estate = .parse := rfl
@[simp] theorem startAttempt_opr (s : State) : (startAttempt s).opr = s.opr := rfl
@[simp] theorem startAttempt_rid (s : State) : (startAttempt s).rid = s.rid := rfl
@[simp] theorem startAttempt_ra (s : State) : (startAttempt s).ra = s.ra := rfl
@[simp] theorem startAttempt_rb (s : State) : (startAttempt s).rb = s.rb := rfl
@[simp] theorem startAttempt_first (s : State) : (startAttempt s).first = false := rfl
@[simp] theorem startAttempt_dir (s : State) : (startAttempt s).dir = s.dir := rfl
@[simp] theorem startAttempt_pstate (s : State) : (startAttempt s).pstate = .seekSync1 := rfl
@[simp] theorem startAttempt_acc (s : State) : (startAttempt s).acc = 0 := rfl
@[simp] theorem startAttempt_cnt (s : State) : (startAttempt s).cnt = 0 := rfl
@[simp] theorem startAttempt_flen (s : State) : (startAttempt s).flen = 0 := rfl
@[simp] theorem startAttempt_pfail (s : State) : (startAttempt s).pfail = .none := rfl
@[simp] theorem startAttempt_fb (s : State) : (startAttempt s).fb = s.fb := rfl
@[simp] theorem startAttempt_txpl (s : State) : (startAttempt s).txpl = s.txpl := rfl
@[simp] theorem startAttempt_done (s : State) : (startAttempt s).done = s.done := rfl
@[simp] theorem startAttempt_fail (s : State) : (startAttempt s).fail = s.fail := rfl
@[simp] theorem startAttempt_ovr (s : State) : (startAttempt s).ovr = s.ovr := rfl
@[simp] theorem startAttempt_code (s : State) : (startAttempt s).code = s.code := rfl
@[simp] theorem startAttempt_result (s : State) : (startAttempt s).result = s.result := rfl
@[simp] theorem startAttempt_rst (s : State) : (startAttempt s).rst = s.rst := rfl
@[simp] theorem startAttempt_rxStream (s : State) : (startAttempt s).rxStream = s.rxStream := rfl
@[simp] theorem startAttempt_flushDraws (s : State) : (startAttempt s).flushDraws = s.flushDraws := rfl
@[simp] theorem startAttempt_readCount (s : State) : (startAttempt s).readCount = s.readCount := rfl
@[simp] theorem startAttempt_flushCount (s : State) : (startAttempt s).flushCount = s.flushCount := rfl
@[simp] theorem startAttempt_resets (s : State) : (startAttempt s).resets = s.resets := rfl
@[simp] theorem startAttempt_busLog (s : State) : (startAttempt s).busLog = s.busLog := rfl
@[simp] theorem startAttempt_rdata (s : State) : (startAttempt s).rdata = s.rdata := rfl
@[simp] theorem startAttempt_schedule (s : State) : (startAttempt s).schedule = s.schedule := rfl

/-! onReadId -/

@[simp] theorem onReadId_estate (b : Byte) (s : State) : (onReadId b s).estate = s.estate := rfl
@[simp] theorem onReadId_opr (b : Byte) (s : State) : (onReadId b s).opr = s.opr := rfl
@[simp] theorem onReadId_rid (b : Byte) (s : State) : (onReadId b s).rid = s.rid := rfl
@[simp] theorem onReadId_ra (b : Byte) (s : State) : (onReadId b s).ra = s.ra := rfl
@[simp] theorem onReadId_rb (b : Byte) (s : State) : (onReadId b s).rb = s.rb := rfl
@[simp] theorem onReadId_first (b : Byte) (s : State) : (onReadId b s).first = s.first := rfl
@[simp] theorem onReadId_dir (b : Byte) (s : State) : (onReadId b s).dir = s.dir := rfl
@[simp] theorem onReadId_pstate (b : Byte) (s : State) : (onReadId b s).pstate = .readLength := rfl
@[simp] theorem onReadId_acc (b : Byte) (s : State) : (onReadId b s).acc = s.acc + b := rfl
@[simp] theorem onReadId_cnt (b : Byte) (s : State) : (onReadId b s).cnt = 1 := rfl
@[simp] theorem onReadId_flen (b : Byte) (s : State) : (onReadId b s).flen = s.flen := rfl
@[simp] theorem onReadId_pfail (b : Byte) (s : State) : (onReadId b s).pfail = s.pfail := rfl
@[simp] theorem onReadId_fb (b : Byte) (s : State) : (onReadId b s).fb = Memory.write s.fb 0 b := rfl
@[simp] theorem onReadId_txpl (b : Byte) (s : State) : (onReadId b s).txpl = s.txpl := rfl
@[simp] theorem onReadId_done (b : Byte) (s : State) : (onReadId b s).done = s.done := rfl
@[simp] theorem onReadId_fail (b : Byte) (s : State) : (onReadId b s).fail = s.fail := rfl
@[simp] theorem onReadId_ovr (b : Byte) (s : State) : (onReadId b s).ovr = s.ovr := rfl
@[simp] theorem onReadId_code (b : Byte) (s : State) : (onReadId b s).code = s.code := rfl
@[simp] theorem onReadId_result (b : Byte) (s : State) : (onReadId b s).result = s.result := rfl
@[simp] theorem onReadId_rst (b : Byte) (s : State) : (onReadId b s).rst = s.rst := rfl
@[simp] theorem onReadId_rxStream (b : Byte) (s : State) : (onReadId b s).rxStream = s.rxStream := rfl
@[simp] theorem onReadId_flushDraws (b : Byte) (s : State) : (onReadId b s).flushDraws = s.flushDraws := rfl
@[simp] theorem onReadId_readCount (b : Byte) (s : State) : (onReadId b s).readCount = s.readCount := rfl
@[simp] theorem onReadId_flushCount (b : Byte) (s : State) : (onReadId b s).flushCount = s.flushCount := rfl
@[simp] theorem onReadId_resets (b : Byte) (s : State) : (onReadId b s).resets = s.resets := rfl
@[simp] theorem onReadId_busLog (b : Byte) (s : State) : (onReadId b s).busLog = s.busLog := rfl
@[simp] theorem onReadId_rdata (b : Byte) (s : State) : (onReadId b s).rdata = s.rdata := rfl
@[simp] theorem onReadId_schedule (b : Byte) (s : State) : (onReadId b s).schedule = s.schedule := rfl

/-! storeLength -/

@[simp] theorem storeLength_estate (b : Byte) (s : State) : (storeLength b s).estate = s.estate := rfl
@[simp] theorem storeLength_opr (b : Byte) (s : State) : (storeLength b s).opr = s.opr := rfl
@[simp] theorem storeLength_rid (b : Byte) (s : State) : (storeLength b s).rid = s.rid := rfl
@[simp] theorem storeLength_ra (b : Byte) (s : State) : (storeLength b s).ra = s.ra := rfl
@[simp] theorem storeLength_rb (b : Byte) (s : State) : (storeLength b s).rb = s.rb := rfl
@[simp] theorem storeLength_first (b : Byte) (s : State) : (storeLength b s).first = s.first := rfl
@[simp] theorem storeLength_dir (b : Byte) (s : State) : (storeLength b s).dir = s.dir := rfl
@[simp] theorem storeLength_pstate (b : Byte) (s : State) : (storeLength b s).pstate = s.pstate := rfl
@[simp] theorem storeLength_acc (b : Byte) (s : State) : (storeLength b s).acc = s.acc + b := rfl
@[simp] theorem storeLength_cnt (b : Byte) (s : State) : (storeLength b s).cnt = 2 := rfl
@[simp] theorem storeLength_flen (b : Byte) (s : State) : (storeLength b s).flen = b := rfl
@[simp] theorem storeLength_pfail (b : Byte) (s : State) : (storeLength b s).pfail = s.pfail := rfl
@[simp] theorem storeLength_fb (b : Byte) (s : State) : (storeLength b s).fb = Memory.write s.fb 1 b := rfl
@[simp] theorem storeLength_txpl (b : Byte) (s : State) : (storeLength b s).txpl = s.txpl := rfl
@[simp] theorem storeLength_done (b : Byte) (s : State) : (storeLength b s).done = s.done := rfl
@[simp] theorem storeLength_fail (b : Byte) (s : State) : (storeLength b s).fail = s.fail := rfl
@[simp] theorem storeLength_ovr (b : Byte) (s : State) : (storeLength b s).ovr = s.ovr := rfl
@[simp] theorem storeLength_code (b : Byte) (s : State) : (storeLength b s).code = s.code := rfl
@[simp] theorem storeLength_result (b : Byte) (s : State) : (storeLength b s).result = s.result := rfl
@[simp] theorem storeLength_rst (b : Byte) (s : State) : (storeLength b s).rst = s.rst := rfl
@[simp] theorem storeLength_rxStream (b : Byte) (s : State) : (storeLength b s).rxStream = s.rxStream := rfl
@[simp] theorem storeLength_flushDraws (b : Byte) (s : State) : (storeLength b s).flushDraws = s.flushDraws := rfl
@[simp] theorem storeLength_readCount (b : Byte) (s : State) : (storeLength b s).readCount = s.readCount := rfl
@[simp] theorem storeLength_flushCount (b : Byte) (s : State) : (storeLength b s).flushCount = s.flushCount := rfl
@[simp] theorem storeLength_resets (b : Byte) (s : State) : (storeLength b s).resets = s.resets := rfl
@[simp] theorem storeLength_busLog (b : Byte) (s : State) : (storeLength b s).busLog = s.busLog := rfl
@[simp] theorem storeLength_rdata (b : Byte) (s : State) : (storeLength b s).rdata = s.rdata := rfl
@[simp] theorem storeLength_schedule (b : Byte) (s : State) : (storeLength b s).schedule = s.schedule := rfl

/-! storeByte -/

@[simp] theorem storeByte_estate (b : Byte) (s : State) : (storeByte b s).estate = s.estate := rfl
@[simp] theorem storeByte_opr (b : Byte) (s : State) : (storeByte b s).opr = s.opr := rfl
@[simp] theorem storeByte_rid (b : Byte) (s : State) : (storeByte b s).rid = s.rid := rfl
@[simp] theorem storeByte_ra (b : Byte) (s : State) : (storeByte b s).ra = s.ra := rfl
@[simp] theorem storeByte_rb (b : Byte) (s : State) : (storeByte b s).rb = s.rb := rfl
@[simp] theorem storeByte_first (b : Byte) (s : State) : (storeByte b s).first = s.first := rfl
@[simp] theorem storeByte_dir (b : Byte) (s : State) : (storeByte b s).dir = s.dir := rfl
@[simp] theorem storeByte_pstate (b : Byte) (s : State) : (storeByte b s).pstate = s.pstate := rfl
@[simp] theorem storeByte_acc (b : Byte) (s : State) : (storeByte b s).acc = s.acc + b := rfl
@[simp] theorem storeByte_cnt (b : Byte) (s : State) : (storeByte b s).cnt = s.cnt + 1 := rfl
@[simp] theorem storeByte_flen (b : Byte) (s : State) : (storeByte b s).flen = s.flen := rfl
@[simp] theorem storeByte_pfail (b : Byte) (s : State) : (storeByte b s).pfail = s.pfail := rfl
@[simp] theorem storeByte_fb (b : Byte) (s : State) : (storeByte b s).fb = Memory.write s.fb s.cnt.toNat b := rfl
@[simp] theorem storeByte_txpl (b : Byte) (s : State) : (storeByte b s).txpl = s.txpl := rfl
@[simp] theorem storeByte_done (b : Byte) (s : State) : (storeByte b s).done = s.done := rfl
@[simp] theorem storeByte_fail (b : Byte) (s : State) : (storeByte b s).fail = s.fail := rfl
@[simp] theorem storeByte_ovr (b : Byte) (s : State) : (storeByte b s).ovr = s.ovr := rfl
@[simp] theorem storeByte_code (b : Byte) (s : State) : (storeByte b s).code = s.code := rfl
@[simp] theorem storeByte_result (b : Byte) (s : State) : (storeByte b s).result = s.result := rfl
@[simp] theorem storeByte_rst (b : Byte) (s : State) : (storeByte b s).rst = s.rst := rfl
@[simp] theorem storeByte_rxStream (b : Byte) (s : State) : (storeByte b s).rxStream = s.rxStream := rfl
@[simp] theorem storeByte_flushDraws (b : Byte) (s : State) : (storeByte b s).flushDraws = s.flushDraws := rfl
@[simp] theorem storeByte_readCount (b : Byte) (s : State) : (storeByte b s).readCount = s.readCount := rfl
@[simp] theorem storeByte_flushCount (b : Byte) (s : State) : (storeByte b s).flushCount = s.flushCount := rfl
@[simp] theorem storeByte_resets (b : Byte) (s : State) : (storeByte b s).resets = s.resets := rfl
@[simp] theorem storeByte_busLog (b : Byte) (s : State) : (storeByte b s).busLog = s.busLog := rfl
@[simp] theorem storeByte_rdata (b : Byte) (s : State) : (storeByte b s).rdata = s.rdata := rfl
@[simp] theorem storeByte_schedule (b : Byte) (s : State) : (storeByte b s).schedule = s.schedule := rfl

/-! sendRequest -/

@[simp] theorem sendRequest_estate (id cmd : Byte) (p : List Byte) (s : State) : (sendRequest id cmd p s).estate = .rxdir := rfl
@[simp] theorem sendRequest_opr (id cmd : Byte) (p : List Byte) (s : State) : (sendRequest id cmd p s).opr = s.opr := rfl
@[simp] theorem sendRequest_rid (id cmd : Byte) (p : List Byte) (s : State) : (sendRequest id cmd p s).rid = s.rid := rfl
@[simp] theorem sendRequest_ra (id cmd : Byte) (p : List Byte) (s : State) : (sendRequest id cmd p s).ra = s.ra := rfl
@[simp] theorem sendRequest_rb (id cmd : Byte) (p : List Byte) (s : State) : (sendRequest id cmd p s).rb = s.rb := rfl
@[simp] theorem sendRequest_first (id cmd : Byte) (p : List Byte) (s : State) : (sendRequest id cmd p s).first = s.first := rfl
@[simp] theorem sendRequest_dir (id cmd : Byte) (p : List Byte) (s : State) : (sendRequest id cmd p s).dir = s.dir := rfl
@[simp] theorem sendRequest_pstate (id cmd : Byte) (p : List Byte) (s : State) : (sendRequest id cmd p s).pstate = s.pstate := rfl
@[simp] theorem sendRequest_acc (id cmd : Byte) (p : List Byte) (s : State) : (sendRequest id cmd p s).acc = sum8 (frameBody id cmd p) := rfl
@[simp] theorem sendRequest_cnt (id cmd : Byte) (p : List Byte) (s : State) : (sendRequest id cmd p s).cnt = s.cnt := rfl
@[simp] theorem sendRequest_flen (id cmd : Byte) (p : List Byte) (s : State) : (sendRequest id cmd p s).flen = s.flen := rfl
@[simp] theorem sendRequest_pfail (id cmd : Byte) (p : List Byte) (s : State) : (sendRequest id cmd p s).pfail = s.pfail := rfl
@[simp] theorem sendRequest_fb (id cmd : Byte) (p : List Byte) (s : State) : (sendRequest id cmd p s).fb = s.fb := rfl
@[simp] theorem sendRequest_txpl (id cmd : Byte) (p : List Byte) (s : State) : (sendRequest id cmd p s).txpl = s.txpl := rfl
@[simp] theorem sendRequest_done (id cmd : Byte) (p : List Byte) (s : State) : (sendRequest id cmd p s).done = s.done := rfl
@[simp] theorem sendRequest_fail (id cmd : Byte) (p : List Byte) (s : State) : (sendRequest id cmd p s).fail = s.fail := rfl
@[simp] theorem sendRequest_ovr (id cmd : Byte) (p : List Byte) (s : State) : (sendRequest id cmd p s).ovr = s.ovr := rfl
@[simp] theorem sendRequest_code (id cmd : Byte) (p : List Byte) (s : State) : (sendRequest id cmd p s).code = s.code := rfl
@[simp] theorem sendRequest_result (id cmd : Byte) (p : List Byte) (s : State) : (sendRequest id cmd p s).result = s.result := rfl
@[simp] theorem sendRequest_rst (id cmd : Byte) (p : List Byte) (s : State) : (sendRequest id cmd p s).rst = s.rst := rfl
@[simp] theorem sendRequest_rxStream (id cmd : Byte) (p : List Byte) (s : State) : (sendRequest id cmd p s).rxStream = s.rxStream := rfl
@[simp] theorem sendRequest_flushDraws (id cmd : Byte) (p : List Byte) (s : State) : (sendRequest id cmd p s).flushDraws = s.flushDraws := rfl
@[simp] theorem sendRequest_readCount (id cmd : Byte) (p : List Byte) (s : State) : (sendRequest id cmd p s).readCount = s.readCount := rfl
@[simp] theorem sendRequest_flushCount (id cmd : Byte) (p : List Byte) (s : State) : (sendRequest id cmd p s).flushCount = s.flushCount := rfl
@[simp] theorem sendRequest_resets (id cmd : Byte) (p : List Byte) (s : State) : (sendRequest id cmd p s).resets = s.resets := rfl
@[simp] theorem sendRequest_busLog (id cmd : Byte) (p : List Byte) (s : State) : (sendRequest id cmd p s).busLog = .send (encodeFrame id cmd p) :: s.busLog := rfl
@[simp] theorem sendRequest_rdata (id cmd : Byte) (p : List Byte) (s : State) : (sendRequest id cmd p s).rdata = s.rdata := rfl
@[simp] theorem sendRequest_schedule (id cmd : Byte) (p : List Byte) (s : State) : (sendRequest id cmd p s).schedule = s.schedule := rfl

/-! resetRegisters -/

@[simp] theorem resetRegisters_estate (level : Bool) (s : State) : (resetRegisters level s).estate = .idle := rfl
@[simp] theorem resetRegisters_opr (level : Bool) (s : State) : (resetRegisters level s).opr = 0 := rfl
@[simp] theorem resetRegisters_rid (level : Bool) (s : State) : (resetRegisters level s).rid = 0 := rfl
@[simp] theorem resetRegisters_ra (level : Bool) (s : State) : (resetRegisters level s).ra = 0 := rfl
@[simp] theorem resetRegisters_rb (level : Bool) (s : State) : (resetRegisters level s).rb = 0 := rfl
@[simp] theorem resetRegisters_first (level : Bool) (s : State) : (resetRegisters level s).first = false := rfl
@[simp] theorem resetRegisters_dir (level : Bool) (s : State) : (resetRegisters level s).dir = .receive := rfl
@[simp] theorem resetRegisters_pstate (level : Bool) (s : State) : (resetRegisters level s).pstate = .seekSync1 := rfl
@[simp] theorem resetRegisters_acc (level : Bool) (s : State) : (resetRegisters level s).acc = 0 := rfl
@[simp] theorem resetRegisters_cnt (level : Bool) (s : State) : (resetRegisters level s).cnt = 0 := rfl
@[simp] theorem resetRegisters_flen (level : Bool) (s : State) : (resetRegisters level s).flen = 0 := rfl
@[simp] theorem resetRegisters_pfail (level : Bool) (s : State) : (resetRegisters level s).pfail = .none := rfl
@[simp] theorem resetRegisters_fb (level : Bool) (s : State) : (resetRegisters level s).fb = [] := rfl
@[simp] theorem resetRegisters_txpl (level : Bool) (s : State) : (resetRegisters level s).txpl = [] := rfl
@[simp] theorem resetRegisters_done (level : Bool) (s : State) : (resetRegisters level s).done = false := rfl
@[simp] theorem resetRegisters_fail (level : Bool) (s : State) : (resetRegisters level s).fail = false := rfl
@[simp] theorem resetRegisters_ovr (level : Bool) (s : State) : (resetRegisters level s).ovr = false := rfl
@[simp] theorem resetRegisters_code (level : Bool) (s : State) : (resetRegisters level s).code = .ok := rfl
@[simp] theorem resetRegisters_result (level : Bool) (s : State) : (resetRegisters level s).result = 0 := rfl
@[simp] theorem resetRegisters_rst (level : Bool) (s : State) : (resetRegisters level s).rst = level := rfl
@[simp] theorem resetRegisters_rxStream (level : Bool) (s : State) : (resetRegisters level s).rxStream = s.rxStream := rfl
@[simp] theorem resetRegisters_flushDraws (level : Bool) (s : State) : (resetRegisters level s).flushDraws = s.flushDraws := rfl
@[simp] theorem resetRegisters_readCount (level : Bool) (s : State) : (resetRegisters level s).readCount = s.readCount := rfl
@[simp] theorem resetRegisters_flushCount (level : Bool) (s : State) : (resetRegisters level s).flushCount = s.flushCount := rfl
@[simp] theorem resetRegisters_resets (level : Bool) (s : State) : (resetRegisters level s).resets = s.resets + 1 := rfl
@[simp] theorem resetRegisters_busLog (level : Bool) (s : State) : (resetRegisters level s).busLog = s.busLog := rfl
@[simp] theorem resetRegisters_rdata (level : Bool) (s : State) : (resetRegisters level s).rdata = s.rdata := rfl
@[simp] theorem resetRegisters_schedule (level : Bool) (s : State) : (resetRegisters level s).schedule = s.schedule := rfl

end Sys2Proof.Machine
end

