-- ==== Sys2Proof/Laws/Memory.lean ====
section
/-! SUPPORT. The buffers: a write is read back and leaves every other byte alone, and keeps the canonical form. -/

namespace Sys2Proof.Machine

theorem Memory.read_write_same (m : Memory) (a : Nat) (b : Byte) : Memory.read (Memory.write m a b) a = some b := by
  induction m with
  | nil => simp [Memory.write, Memory.read]
  | cons c m ih =>
    obtain ⟨k, v⟩ := c
    simp only [Memory.write]
    split
    · simp [Memory.read]
    · split
      · simp [Memory.read]
      · next h => simp [Memory.read, Ne.symm h, ih]

theorem Memory.read_write_other (m : Memory) (a c : Nat) (b : Byte) (h : c ≠ a) :
    Memory.read (Memory.write m a b) c = Memory.read m c := by
  induction m with
  | nil => simp [Memory.write, Memory.read, Ne.symm h]
  | cons x m ih =>
    obtain ⟨k, v⟩ := x
    simp only [Memory.write]
    split
    · simp [Memory.read, Ne.symm h]
    · split
      · next e => subst e; simp [Memory.read, Ne.symm h]
      · simp [Memory.read, ih]

theorem Memory.mem_write (m : Memory) (a : Nat) (b : Byte) (c : Host.Cell) (h : c ∈ Memory.write m a b) :
    c = (a, b) ∨ c ∈ m := by
  induction m with
  | nil => simpa [Memory.write] using h
  | cons x m ih =>
    obtain ⟨k, v⟩ := x
    simp only [Memory.write] at h
    split at h
    · simpa using h
    · split at h
      · rcases List.mem_cons.1 h with h | h <;> simp [h]
      · rcases List.mem_cons.1 h with h | h
        · simp [h]
        · rcases ih h with h | h <;> simp [h]

/-- Every write inside the buffer keeps the canonical form. -/
theorem Memory.wf_write {cap : Nat} {m : Memory} {a : Nat} (b : Byte) (hm : Memory.wf cap m) (ha : a < cap) :
    Memory.wf cap (Memory.write m a b) := by
  obtain ⟨hp, hc⟩ := hm
  refine ⟨?_, fun c h => (Memory.mem_write m a b c h).elim (fun h => h ▸ ha) (hc c)⟩
  clear hc
  induction m with
  | nil => simp [Memory.write]
  | cons x m ih =>
    obtain ⟨k, v⟩ := x
    rw [List.pairwise_cons] at hp
    simp only [Memory.write]
    split
    · next h =>
      refine List.pairwise_cons.2 ⟨fun c hc => ?_, List.pairwise_cons.2 hp⟩
      rcases List.mem_cons.1 hc with rfl | hc
      · exact h
      · exact Nat.lt_trans h (hp.1 c hc)
    · split
      · next h => subst h; exact List.pairwise_cons.2 hp
      · next h1 h2 =>
        refine List.pairwise_cons.2 ⟨fun c hc => ?_, ih hp.2⟩
        rcases Memory.mem_write m a b c hc with rfl | hc
        · show k < a; omega
        · exact hp.1 c hc

theorem Memory.wf_nil (cap : Nat) : Memory.wf cap [] := ⟨List.Pairwise.nil, fun _ h => by cases h⟩

/-- `FB[i]` depends on FB alone, and on which reset left its unspecified bytes. -/
theorem fbRead_congr {s t : State} (h : t.fb = s.fb) (hr : t.resets = s.resets) (i : Nat) : fbRead t i = fbRead s i := by
  simp [fbRead, h, hr]

theorem fbTake_congr {s t : State} (h : t.fb = s.fb) (hr : t.resets = s.resets) (n : Nat) : fbTake n t = fbTake n s := by
  simp [fbTake, fun i => fbRead_congr h hr i]

theorem fbRead_of_write {s t : State} {i : Nat} {b : Byte} (h : t.fb = Memory.write s.fb i b) : fbRead t i = b := by
  simp [fbRead, h, Memory.read_write_same]

theorem fbRead_of_write_other {s t : State} {i j : Nat} {b : Byte} (h : t.fb = Memory.write s.fb i b)
    (hr : t.resets = s.resets) (hj : j ≠ i) : fbRead t j = fbRead s j := by
  simp [fbRead, h, hr, Memory.read_write_other _ _ _ _ hj]

/-- A byte stored at the end of the bytes held: one more is held. -/
theorem fbTake_succ_of_write {s t : State} {n : Nat} {b : Byte} (h : t.fb = Memory.write s.fb n b)
    (hr : t.resets = s.resets) : fbTake (n + 1) t = fbTake n s ++ [b] := by
  simp only [fbTake, List.range_succ, List.map_append, List.map_cons, List.map_nil, fbRead_of_write h]
  congr 1
  refine List.map_congr_left fun j hj => fbRead_of_write_other h hr ?_
  have := List.mem_range.1 hj
  omega

@[simp] theorem fbTake_zero (s : State) : fbTake 0 s = [] := rfl

@[simp] theorem fbTake_length (n : Nat) (s : State) : (fbTake n s).length = n := by simp [fbTake]

@[simp] theorem txplTake_length (n : Nat) (s : State) : (txplTake n s).length = n := by simp [txplTake]

theorem txplTake_congr {s t : State} (h : t.txpl = s.txpl) (hr : t.resets = s.resets) (n : Nat) :
    txplTake n t = txplTake n s := by
  simp [txplTake, txplRead, h, hr]

end Sys2Proof.Machine
end

