-- ==== Sys2Proof/Laws/Ops.lean ====
section
/-! SUPPORT. What each shared operation can do, said once. -/

namespace Sys2Proof.Machine

@[simp] theorem whenIdle_idle {s : State} (f : State → State) (h : s.estate = .idle) : whenIdle f s = f s := by
  simp [whenIdle, h]

@[simp] theorem whenIdle_busy {s : State} (f : State → State) (h : s.estate ≠ .idle) : whenIdle f s = setOverrun s := by
  simp [whenIdle, h]

/-- A write of a request word (R190 to R192, R252): dropped, refused or accepted. -/
theorem request_cases {check : Option Code} {op : BitVec 4} {id : Byte} {a b : Half} {s : State} :
    (s.estate ≠ .idle ∧ request check op id a b s = setOverrun s) ∨
    (∃ c, s.estate = .idle ∧ check = some c ∧ request check op id a b s = requestError c s) ∨
    (s.estate = .idle ∧ check = none ∧
      request check op id a b s = accept op id a b (if op = Op.rxFrame then .rxdir else .txdir) s) := by
  by_cases h : s.estate = .idle
  · cases check with
    | none => exact .inr (.inr ⟨h, rfl, by simp [request, h]⟩)
    | some c => exact .inr (.inl ⟨c, h, rfl, by simp [request, h]⟩)
  · exact .inl ⟨h, by simp [request, h]⟩

/-- An instruction is a request written by the host or a frame sent: it always answers a next state of one of two forms. -/
theorem exec_form (i : Instr) (s : State) :
    (∃ check op id a b, exec i s = .next (request check op id a b s)) ∨
    (∃ id cmd p, exec i s = .next (sendRequest id cmd p s)) := by
  cases i
  case queryId | setId | readPos | move | moveWait | start | stop | enable | txRaw | rxFrame =>
    exact .inl ⟨_, _, _, _, _, rfl⟩
  all_goals exact .inr ⟨_, _, _, rfl⟩

/-- READ_BODY on a byte (R157, R158): out of range, stored, complete, or a checksum failure. -/
theorem onReadBody_cases (b : Byte) (s : State) :
    (onReadBody b s = .fault .bodyOverrun ∧ (Config.fbCap ≤ s.cnt.toNat ∨ s.flen.toNat < s.cnt.toNat)) ∨
    (onReadBody b s = .next (storeByte b s) ∧ s.cnt.toNat < Config.fbCap ∧ s.cnt.toNat < s.flen.toNat) ∨
    (onReadBody b s = .next (setPState .complete (storeByte b s)) ∧ s.cnt.toNat < Config.fbCap ∧
      s.cnt.toNat = s.flen.toNat ∧ s.acc + b = 0xFF) ∨
    (onReadBody b s = .next (parseFail .checksum (storeByte b s)) ∧ s.cnt.toNat < Config.fbCap ∧
      s.cnt.toNat = s.flen.toNat ∧ s.acc + b ≠ 0xFF) := by
  unfold onReadBody
  split
  · next h => exact .inl ⟨rfl, h.imp id id⟩
  · next h =>
    rw [not_or] at h
    split
    · exact .inr (.inl ⟨rfl, by omega, by omega⟩)
    · split
      · next e => exact .inr (.inr (.inl ⟨rfl, by omega, by omega, e⟩))
      · next e => exact .inr (.inr (.inr ⟨rfl, by omega, by omega, e⟩))

/-- A timeout in a reading state fails the attempt (R160). -/
theorem onTimeout_next {s t : State} (h : onTimeout s = .next t) : t = parseFail .timeout s := by
  unfold onTimeout at h
  split at h <;> simp_all

/-- What follows an outcome answers a next state only if the outcome did. -/
theorem thenState_next {o : Host.Outcome State Fault Refusal} {f : State → State} {t : State}
    (h : thenState o f = .next t) : ∃ u, o = .next u ∧ t = f u := by
  cases o with
  | next u => exact ⟨u, rfl, by simpa [thenState] using h.symm⟩
  | fault r => simp [thenState] at h
  | refused r => simp [thenState] at h

/-- A PARSE step (R152): a byte's transition or a timeout, then what follows it. -/
theorem parseStep_cases {s t : State} (h : parseStep s = .next t) :
    (∃ b u, readResult s = .byte b ∧ onByte b (tRead s) = .next u ∧ t = afterTransition u) ∨
    (readResult s = .timeout ∧ t = afterTransition (parseFail .timeout (tRead s))) := by
  obtain ⟨u, hu, rfl⟩ := thenState_next h
  cases hr : readResult s with
  | byte b => exact .inl ⟨b, u, rfl, by simpa [hr] using hu, rfl⟩
  | timeout =>
    rw [hr] at hu
    exact .inr ⟨rfl, congrArg afterTransition (onTimeout_next hu)⟩

@[simp] theorem afterTransition_failed {s : State} (h : s.pstate = .failed) :
    afterTransition s = finishFail s.pfail.code s := by
  simp [afterTransition, h]

@[simp] theorem afterTransition_complete {s : State} (h : s.pstate = .complete) :
    afterTransition s = setEState .filter s := by
  simp [afterTransition, h]

@[simp] theorem afterTransition_fb (s : State) : (afterTransition s).fb = s.fb := by
  unfold afterTransition
  split <;> rfl

theorem afterTransition_reading {s : State} (hc : s.pstate ≠ .complete) (hf : s.pstate ≠ .failed) :
    afterTransition s = s := by
  unfold afterTransition
  split <;> simp_all

/-- A TXSEND step that answers a next state has put one frame on the bus (R138). -/
theorem txsendStep_next {s t : State} (h : txsendStep s = .next t) :
    (s.opr = Op.txRaw ∧ (argCount s.ra).toNat ≤ Config.maxTxPayload ∧
      t = sendRequest s.rid (argByte s.ra) (txplTake (argCount s.ra).toNat s) s) ∨
    (∃ c i, s.opr ≠ Op.txRaw ∧ commandOf s.opr = some c ∧ decodeCmd c = .ok i ∧ exec i s = .next t) := by
  unfold txsendStep at h
  split at h
  · next ho =>
    unfold sendRaw at h
    split at h
    · cases h
    · exact .inl ⟨ho, by omega, by cases h; rfl⟩
  · next ho =>
    split at h
    · next c hc =>
      unfold runCommand at h
      split at h
      · next i hi => exact .inr ⟨c, i, ho, hc, hi, h⟩
      · cases h
    · cases h

/-- FILTER (R195): the frame matches and ends the operation, or a new attempt is armed. -/
theorem filterStep_next {s t : State} (h : filterStep s = .next t) :
    (∃ v, t = finishOk v s) ∨ t = setEState .arm s := by
  have key : ∀ m v, matchOrRearm m v s = t → (∃ v, t = finishOk v s) ∨ t = setEState .arm s := by
    intro m v e
    cases m
    · exact .inr (by simpa [matchOrRearm] using e.symm)
    · exact .inl ⟨v, by simpa [matchOrRearm] using e.symm⟩
  unfold filterStep at h
  split at h
  · cases h; exact key _ _ rfl
  · split at h
    · cases h; exact key _ _ rfl
    · split at h
      · cases h; exact key _ _ rfl
      · cases h

/-- A host access (R250 to R256): nothing, a read, an instruction, a request error, or a byte of TXPL. -/
theorem hostAccess_cases {a : HostAccess} {s t : State} (h : hostAccess a s = .next t) :
    t = s ∨ (∃ v, t = { s with rdata := v }) ∨
    (∃ w i, decodeReq w = .ok i ∧ exec i s = .next t) ∨
    (∃ c, t = whenIdle (requestError c) s) ∨
    (∃ i b, i < Config.maxTxPayload ∧ s.estate = .idle ∧ t = txplWrite i b s) := by
  unfold hostAccess at h
  split at h
  · exact .inl (by cases h; rfl)
  · cases a with
    | read idx n => exact .inr (.inl ⟨_, by cases h; rfl⟩)
    | write idx n v =>
      simp only [hostWrite] at h
      split at h
      · unfold writeReq at h
        split at h
        · next i hi => exact .inr (.inr (.inl ⟨_, i, hi, h⟩))
        · exact .inr (.inr (.inr (.inl ⟨_, by cases h; rfl⟩)))
      · split at h
        · next hi =>
          split at h
          · next hs => exact .inr (.inr (.inr (.inr ⟨idx.toNat - 0x40, _, by omega, hs, by cases h; rfl⟩)))
          · exact .inl (by cases h; rfl)
        · exact .inl (by cases h; rfl)

/-- One turn: SBPF, the host or the reset input, on the state with the schedule's rest. -/
theorem stepUnder_cases {p : FlushPolicy} {s t : State} (h : stepUnder p s = .next t) :
    ∃ rest, sbpfStep p { s with schedule := rest } = .next t ∨
      (∃ a, hostAccess a { s with schedule := rest } = .next t) ∨
      (∃ level, t = driveReset level { s with schedule := rest }) := by
  unfold stepUnder at h
  split at h
  · next e => exact ⟨[], .inl (by rw [← h]; congr 1; rw [← e])⟩
  · exact ⟨_, .inl h⟩
  · exact ⟨_, .inr (.inl ⟨_, h⟩)⟩
  · exact ⟨_, .inr (.inr ⟨_, by cases h; rfl⟩)⟩

/-- SBPF's turn: nothing under reset or in IDLE, else the step ESTATE selects (R24, R310). -/
theorem sbpfStep_cases {p : FlushPolicy} {s t : State} (h : sbpfStep p s = .next t) :
    t = s ∨ (s.estate = .txdir ∧ t = txdirStep s) ∨ (s.estate = .txsend ∧ txsendStep s = .next t) ∨
    (s.estate = .rxdir ∧ t = rxdirStep s) ∨ (s.estate = .arm ∧ t = armStep p s) ∨
    (s.estate = .parse ∧ parseStep s = .next t) ∨ (s.estate = .filter ∧ filterStep s = .next t) := by
  unfold sbpfStep engineStep at h
  split at h
  · cases h; simp
  · split at h
    · cases h
    · split at h <;> simp_all

/-- Where neither reset nor a reserved PSTATE is in the way, SBPF's turn is the step ESTATE selects (R24). -/
@[simp] theorem sbpfStep_engineStep {p : FlushPolicy} {s : State} (hr : s.rst = false) (hp : s.pstate ≠ .reserved) :
    sbpfStep p s = engineStep p s := by
  simp [sbpfStep, hr, hp]

end Sys2Proof.Machine
end

