-- ==== Sys2Proof/Laws/PerInstr.lean ====
section
/-! SUPPORT. Per instruction: its word, whatever its operands, lies in its row of spec/opcode_table.json, in the row's width and with
the row's bits under the row's mask. -/

namespace Sys2Proof

/-- A word has format REQ, and `want` under `mask`. -/
def Laws.InRow.request (mask want : ReqWord) : CodeWord → Prop
  | .request w => w &&& mask = want
  | .command _ => False

/-- A word has format FRAME_CMD, and is `want`. -/
def Laws.InRow.command (want : Byte) : CodeWord → Prop
  | .request _ => False
  | .command c => c &&& 0xFF = want

/-- The instruction's word against the mask and the match its row has in spec/opcode_table.json. -/
def Laws.InRow.Statement (i : Instr) : Prop :=
  match i with
  | .queryId => Laws.InRow.request 0xFFFFFFFFFFFF 0x000000000001 (encode i)
  | .setId _ => Laws.InRow.request 0xFFFFFF00FFFF 0x000000000002 (encode i)
  | .readPos _ => Laws.InRow.request 0xFFFFFFFF00FF 0x000000000003 (encode i)
  | .move _ _ _ => Laws.InRow.request 0x0000000000FF 0x000000000004 (encode i)
  | .moveWait _ _ _ => Laws.InRow.request 0x0000000000FF 0x000000000005 (encode i)
  | .start => Laws.InRow.request 0xFFFFFFFFFFFF 0x000000000006 (encode i)
  | .stop => Laws.InRow.request 0xFFFFFFFFFFFF 0x000000000007 (encode i)
  | .enable _ _ => Laws.InRow.request 0xFFFFFF0000FF 0x000000000008 (encode i)
  | .txRaw _ _ _ => Laws.InRow.request 0xFFFFC00000FF 0x000000000009 (encode i)
  | .rxFrame => Laws.InRow.request 0xFFFFFFFFFFFF 0x00000000000A (encode i)
  | .moveTimeWrite => Laws.InRow.command 0x01 (encode i)
  | .moveTimeWaitWrite => Laws.InRow.command 0x07 (encode i)
  | .moveStart => Laws.InRow.command 0x0B (encode i)
  | .moveStop => Laws.InRow.command 0x0C (encode i)
  | .idWrite => Laws.InRow.command 0x0D (encode i)
  | .idRead => Laws.InRow.command 0x0E (encode i)
  | .posRead => Laws.InRow.command 0x1C (encode i)
  | .loadUnloadWrite => Laws.InRow.command 0x1F (encode i)

/-- Masking a packed word masks its fields. -/
theorem packReq_and (op mop mr : BitVec 4) (id mid : Byte) (a b ma mb : Half) :
    packReq op id a b &&& (mb ++ ma ++ mid ++ mr ++ mop) = packReq (op &&& mop) (id &&& mid) (a &&& ma) (b &&& mb) := by
  refine (BitVec.and_append (x₁ := b ++ a ++ id ++ (0 : BitVec 4)) (x₂ := mb ++ ma ++ mid ++ mr) (y₁ := op) (y₂ := mop)).trans
    (congrArg (fun x : BitVec 44 => x ++ (op &&& mop)) ?_)
  rw [BitVec.and_append, BitVec.and_append, BitVec.and_append, show (0 : BitVec 4) &&& mr = 0 from BitVec.zero_and]

theorem packByte_and_high (v : Byte) : packByte v &&& 0xFF00 = 0 := by
  rw [show (0xFF00 : Half) = (0xFF : Byte) ++ (0 : Byte) from rfl, packByte, BitVec.and_append]
  simp

theorem packRaw_and_top (c : Byte) (n : BitVec 6) : packRaw c n &&& 0xC000 = 0 := by
  rw [show (0xC000 : Half) = (0b11 : BitVec 2) ++ (0 : BitVec 6) ++ (0 : Byte) from rfl, packRaw, BitVec.and_append, BitVec.and_append]
  simp

theorem Laws.InRow.queryId : Laws.InRow.Statement .queryId := rfl

theorem Laws.InRow.setId (newId : Byte) : Laws.InRow.Statement (.setId newId) := by
  refine (packReq_and Op.setId 0xF 0xF 0 0xFF (packByte newId) 0 0xFF00 0xFFFF).trans ?_
  rw [packByte_and_high]; rfl

theorem Laws.InRow.readPos (id : Byte) : Laws.InRow.Statement (.readPos id) := by
  refine (packReq_and Op.readPos 0xF 0xF id 0 0 0 0xFFFF 0xFFFF).trans ?_
  rw [show id &&& 0 = 0 from BitVec.and_zero]; rfl

theorem Laws.InRow.move (id : Byte) (position duration : Half) : Laws.InRow.Statement (.move id position duration) := by
  refine (packReq_and Op.move 0xF 0xF id 0 position duration 0 0).trans ?_
  rw [show id &&& 0 = 0 from BitVec.and_zero, show position &&& 0 = 0 from BitVec.and_zero,
    show duration &&& 0 = 0 from BitVec.and_zero]; rfl

theorem Laws.InRow.moveWait (id : Byte) (position duration : Half) : Laws.InRow.Statement (.moveWait id position duration) := by
  refine (packReq_and Op.moveWait 0xF 0xF id 0 position duration 0 0).trans ?_
  rw [show id &&& 0 = 0 from BitVec.and_zero, show position &&& 0 = 0 from BitVec.and_zero,
    show duration &&& 0 = 0 from BitVec.and_zero]; rfl

theorem Laws.InRow.start : Laws.InRow.Statement .start := rfl

theorem Laws.InRow.stop : Laws.InRow.Statement .stop := rfl

theorem Laws.InRow.enable (id mode : Byte) : Laws.InRow.Statement (.enable id mode) := by
  refine (packReq_and Op.enable 0xF 0xF id 0 (packByte mode) 0 0xFF00 0xFFFF).trans ?_
  rw [packByte_and_high, show id &&& 0 = 0 from BitVec.and_zero]; rfl

theorem Laws.InRow.txRaw (id command : Byte) (n : BitVec 6) : Laws.InRow.Statement (.txRaw id command n) := by
  refine (packReq_and Op.txRaw 0xF 0xF id 0 (packRaw command n) 0 0xC000 0xFFFF).trans ?_
  rw [packRaw_and_top, show id &&& 0 = 0 from BitVec.and_zero]; rfl

theorem Laws.InRow.rxFrame : Laws.InRow.Statement .rxFrame := rfl

theorem Laws.InRow.moveTimeWrite : Laws.InRow.Statement .moveTimeWrite := rfl

theorem Laws.InRow.moveTimeWaitWrite : Laws.InRow.Statement .moveTimeWaitWrite := rfl

theorem Laws.InRow.moveStart : Laws.InRow.Statement .moveStart := rfl

theorem Laws.InRow.moveStop : Laws.InRow.Statement .moveStop := rfl

theorem Laws.InRow.idWrite : Laws.InRow.Statement .idWrite := rfl

theorem Laws.InRow.idRead : Laws.InRow.Statement .idRead := rfl

theorem Laws.InRow.posRead : Laws.InRow.Statement .posRead := rfl

theorem Laws.InRow.loadUnloadWrite : Laws.InRow.Statement .loadUnloadWrite := rfl

end Sys2Proof
end

