-- ==== Sys2Proof/Tests/Slice0.lean ====
section
/-! SUPPORT. Tests: ill-formed operands refused, a word written out from the encoding of each instruction, single steps against the
vectors of 95_test_vectors, and a witness for the hypotheses of each statement. -/

namespace Sys2Proof.Tests

open Sys2Proof.Machine

/-! Helpers. -/

/-- A property of the next state; false of a stop. -/
def after (o : Host.Outcome State Fault Refusal) (f : State → Bool) : Bool :=
  match o with
  | .next t => f t
  | .fault _ => false
  | .refused _ => false

/-- Reset state, in engine state `e`. -/
def at_ (e : EState) : State := { State.reset with estate := e }

/-- Reset state, in PARSE at `p`, with these read results to come. -/
def parsing (p : PState) (rx : List ReadResult) : State := { at_ .parse with pstate := p, rxStream := rx }

/-- The newest transport call. -/
def lastCall (s : State) : Option BusCall := s.busLog.head?

/-! Ill-formed operands (R106, R190). -/

theorem test_setId_illFormed : (Instr.setId 0xFE).wellFormed = false ∧ (Instr.setId 0xFD).wellFormed = true := by decide
theorem test_readPos_illFormed : (Instr.readPos 0xFF).wellFormed = false ∧ (Instr.readPos 0xFE).wellFormed = true := by decide
theorem test_move_illFormed : (Instr.move 0xFF 0 0).wellFormed = false ∧ (Instr.move 0xFE 0xFFFF 0xFFFF).wellFormed = true := by decide
theorem test_moveWait_illFormed : (Instr.moveWait 0xFF 0 0).wellFormed = false ∧ (Instr.moveWait 0xFE 0 0).wellFormed = true := by
  decide
theorem test_enable_illFormed :
    (Instr.enable 0xFF 0).wellFormed = false ∧ (Instr.enable 1 2).wellFormed = false ∧ (Instr.enable 0xFE 1).wellFormed = true := by
  decide
theorem test_txRaw_illFormed :
    (Instr.txRaw 0xFF 0 0).wellFormed = false ∧ (Instr.txRaw 1 0 60).wellFormed = false ∧ (Instr.txRaw 0xFE 0xFF 59).wellFormed = true := by
  decide

/-! Words written out from R104 to R106 and R96 (V25), one for each constructor. -/

theorem test_decode_queryId : decodeTableWord 48 0x000000000001 = some .queryId := by decide
theorem test_decode_setId : decodeTableWord 48 0x000000FD0002 = some (.setId 0xFD) := by decide
theorem test_decode_readPos : decodeTableWord 48 0x000000000103 = some (.readPos 1) := by decide
theorem test_decode_move : decodeTableWord 48 0xFFFF80000504 = some (.move 5 0x8000 0xFFFF) := by decide
theorem test_decode_moveWait : decodeTableWord 48 0x03E801F40205 = some (.moveWait 2 500 1000) := by decide
theorem test_decode_start : decodeTableWord 48 0x000000000006 = some .start := by decide
theorem test_decode_stop : decodeTableWord 48 0x000000000007 = some .stop := by decide
theorem test_decode_enable : decodeTableWord 48 0x00000001FE08 = some (.enable 0xFE 1) := by decide
theorem test_decode_txRaw : decodeTableWord 48 0x000003421009 = some (.txRaw 0x10 0x42 3) := by decide
theorem test_decode_rxFrame : decodeTableWord 48 0x00000000000A = some .rxFrame := by decide
theorem test_decode_moveTimeWrite : decodeTableWord 8 0x01 = some .moveTimeWrite := by decide
theorem test_decode_moveTimeWaitWrite : decodeTableWord 8 0x07 = some .moveTimeWaitWrite := by decide
theorem test_decode_moveStart : decodeTableWord 8 0x0B = some .moveStart := by decide
theorem test_decode_moveStop : decodeTableWord 8 0x0C = some .moveStop := by decide
theorem test_decode_idWrite : decodeTableWord 8 0x0D = some .idWrite := by decide
theorem test_decode_idRead : decodeTableWord 8 0x0E = some .idRead := by decide
theorem test_decode_posRead : decodeTableWord 8 0x1C = some .posRead := by decide
theorem test_decode_loadUnloadWrite : decodeTableWord 8 0x1F = some .loadUnloadWrite := by decide

/-- Reserved OPs and non-zero reserved fields are no instruction (V50 to V52, V55 to V57a). -/
theorem test_decode_rejects :
    decodeTableWord 48 0x00000000000F = none ∧ decodeTableWord 48 0x000000000101 = none ∧ decodeTableWord 48 0x000100000001 = none ∧
    decodeTableWord 48 0x000000010103 = none ∧ decodeTableWord 48 0x000001050002 = none ∧ decodeTableWord 48 0x000001000108 = none ∧
    decodeTableWord 48 0x000040421009 = none ∧ decodeTableWord 48 0x100000421009 = none ∧ decodeTableWord 48 0x000000FE0012 = none := by
  decide

/-! Requests: acceptance, and the status of each request error (V50 to V62). -/

/-- V61: STATUS reads BUSY. -/
theorem test_readPos_accepted :
    after (exec (.readPos 1) State.reset) (fun t => statusWord t == 0x01 && t.estate == .txdir && t.rid == 1) = true := by decide
/-- V53. -/
theorem test_readPos_badId : after (exec (.readPos 0xFF) State.reset) (fun t => statusWord t == 0x56 && t.estate == .idle) = true := by
  decide
theorem test_queryId_accepted :
    after (exec .queryId State.reset) (fun t => statusWord t == 0x01 && t.estate == .txdir && t.opr == 1 && t.first) = true := by decide
/-- V62: STATUS reads BUSY and OVR, and the request is dropped. -/
theorem test_queryId_overrun :
    after (exec .queryId { at_ .parse with opr := 3 }) (fun t => statusWord t == 0x09 && t.estate == .parse && t.opr == 3) = true := by
  decide
theorem test_setId_accepted :
    after (exec (.setId 7) State.reset) (fun t => t.opr == 2 && t.rid == 0 && t.ra == 7 && t.rb == 0) = true := by decide
/-- V54. -/
theorem test_setId_badId : after (exec (.setId 0xFE) State.reset) (fun t => statusWord t == 0x56) = true := by decide
theorem test_move_accepted :
    after (exec (.move 1 1000 500) State.reset) (fun t => t.opr == 4 && t.rid == 1 && t.ra == 1000 && t.rb == 500) = true := by decide
/-- V59. -/
theorem test_move_badId : after (exec (.move 0xFF 0xFFFF 0xFFFF) State.reset) (fun t => statusWord t == 0x56) = true := by decide
theorem test_moveWait_accepted :
    after (exec (.moveWait 2 500 1000) State.reset) (fun t => t.opr == 5 && t.rid == 2 && t.ra == 500 && t.rb == 1000) = true := by decide
theorem test_moveWait_badId : after (exec (.moveWait 0xFF 0 0) State.reset) (fun t => statusWord t == 0x56) = true := by decide
/-- V62c: an accepted request clears OVR, DONE and the code. -/
theorem test_start_clears_status :
    after (exec .start { State.reset with done := true, fail := true, ovr := true, code := .timeout })
      (fun t => statusWord t == 0x01 && t.opr == 6) = true := by decide
theorem test_stop_accepted : after (exec .stop State.reset) (fun t => statusWord t == 0x01 && t.opr == 7) = true := by decide
/-- V56. -/
theorem test_enable_badArg : after (exec (.enable 1 2) State.reset) (fun t => statusWord t == 0x66) = true := by decide
/-- V58a: BADID comes before the mode check. -/
theorem test_enable_badId_first : after (exec (.enable 0xFF 2) State.reset) (fun t => statusWord t == 0x56) = true := by decide
/-- V57. -/
theorem test_txRaw_badArg : after (exec (.txRaw 0x10 0x42 60) State.reset) (fun t => statusWord t == 0x66) = true := by decide
theorem test_txRaw_accepted :
    after (exec (.txRaw 0x10 0x42 3) State.reset) (fun t => t.opr == 9 && t.rid == 0x10 && t.ra == 0x0342) = true := by decide
/-- RX_FRAME skips TXDIR and TXSEND (R191). -/
theorem test_rxFrame_accepted : after (exec .rxFrame State.reset) (fun t => statusWord t == 0x01 && t.estate == .rxdir) = true := by decide
/-- V58: the reserved check comes before the range check. V50: a reserved OP. -/
theorem test_request_errors :
    after (writeReq 0x000000FE0012 State.reset) (fun t => statusWord t == 0x66) = true ∧
    after (writeReq 0x00000000000F State.reset) (fun t => statusWord t == 0x46) = true := by decide

/-! Wire commands: the frames of V25. -/

/-- V25: `move 1, 1000, 500` is clamped to 875. -/
theorem test_moveTimeWrite_frame :
    after (exec .moveTimeWrite { at_ .txsend with rid := 1, ra := 1000, rb := 500 })
      (fun t => lastCall t == some (.send [0x55, 0x55, 0x01, 0x07, 0x01, 0x6B, 0x03, 0xF4, 0x01, 0x93])) = true := by decide
/-- V25: `move 3, -100, 0` is clamped to 125. -/
theorem test_moveTimeWrite_negative :
    after (exec .moveTimeWrite { at_ .txsend with rid := 3, ra := 0xFF9C, rb := 0 })
      (fun t => lastCall t == some (.send [0x55, 0x55, 0x03, 0x07, 0x01, 0x7D, 0x00, 0x00, 0x00, 0x77])) = true := by decide
theorem test_moveTimeWaitWrite_frame :
    after (exec .moveTimeWaitWrite { at_ .txsend with rid := 2, ra := 500, rb := 1000 })
      (fun t => lastCall t == some (.send [0x55, 0x55, 0x02, 0x07, 0x07, 0xF4, 0x01, 0xE8, 0x03, 0x0F])) = true := by decide
/-- V25, V27: the frame, and ACC after it. -/
theorem test_moveStart_frame :
    after (exec .moveStart (at_ .txsend))
      (fun t => lastCall t == some (.send [0x55, 0x55, 0xFE, 0x03, 0x0B, 0xF3]) && t.acc == 0x0C && t.estate == .rxdir) = true := by decide
theorem test_moveStop_frame :
    after (exec .moveStop (at_ .txsend)) (fun t => lastCall t == some (.send [0x55, 0x55, 0xFE, 0x03, 0x0C, 0xF2])) = true := by decide
theorem test_idWrite_frame :
    after (exec .idWrite { at_ .txsend with ra := 5 })
      (fun t => lastCall t == some (.send [0x55, 0x55, 0xFE, 0x04, 0x0D, 0x05, 0xEB])) = true := by decide
theorem test_idRead_frame :
    after (exec .idRead (at_ .txsend)) (fun t => lastCall t == some (.send [0x55, 0x55, 0xFE, 0x03, 0x0E, 0xF0])) = true := by decide
/-- V1, V25. -/
theorem test_posRead_frame :
    after (exec .posRead { at_ .txsend with rid := 1 })
      (fun t => lastCall t == some (.send [0x55, 0x55, 0x01, 0x03, 0x1C, 0xDF])) = true := by decide
theorem test_loadUnloadWrite_frame :
    after (exec .loadUnloadWrite { at_ .txsend with rid := 1, ra := 1 })
      (fun t => lastCall t == some (.send [0x55, 0x55, 0x01, 0x04, 0x1F, 0x01, 0xDA])) = true := by decide
/-- V25: `tx_raw 0x10, 0x42, 3`, through SBPF's TXSEND step. -/
theorem test_txRaw_frame :
    after (step { at_ .txsend with opr := 9, rid := 0x10, ra := 0x0342, txpl := [(0, 1), (1, 2), (2, 3)] })
      (fun t => lastCall t == some (.send [0x55, 0x55, 0x10, 0x06, 0x42, 0x01, 0x02, 0x03, 0xA1])) = true := by decide
/-- The words of the table run as the first step after reset. -/
theorem test_withFetchWord :
    after (step (State.reset.withFetchWord 48 0x0A)) (fun t => t.estate == .rxdir && t.opr == 10) = true ∧
    after (step (State.reset.withFetchWord 8 0x0B))
      (fun t => lastCall t == some (.send [0x55, 0x55, 0xFE, 0x03, 0x0B, 0xF3])) = true := by decide

/-! Parser and completion (V13 to V18, V34, V33b, V65). -/

/-- V13: the length byte 0x01 after the id 0x55. -/
theorem test_parse_length :
    after (step { parsing .readLength [.byte 0x01] with fb := [(0, 0x55)], cnt := 1, acc := 0x55 })
      (fun t => statusWord t == 0x36 && t.fb == [(0, 0x55), (1, 0x01)] && t.cnt == 2 && t.flen == 1 && t.acc == 0x56) = true := by decide
/-- V18: the last byte of the body with a bad sum. -/
theorem test_parse_checksum :
    after (step { parsing .readBody [.byte 0xE2] with fb := [(0, 1), (1, 3), (2, 0x1C)], cnt := 3, flen := 3, acc := 0x20 })
      (fun t => statusWord t == 0x26 && t.acc == 0x02 && t.cnt == 4 && t.pfail == .checksum) = true := by decide
/-- A frame with length 05 whose length byte was changed to 03: the shorter body sums to 0xFF, so the validator accepts it
(R156 to R158; entry 18). -/
theorem test_changed_length_completes :
    encodeFrame 0x01 0x1C [0xDF, 0x00] = [0x55, 0x55, 0x01, 0x05, 0x1C, 0xDF, 0x00, 0xFE] ∧
    after (step { parsing .readBody [.byte 0xDF] with fb := [(0, 1), (1, 3), (2, 0x1C)], cnt := 3, flen := 3, acc := 0x20 })
      (fun t => t.pstate == .complete && t.estate == .filter) = true := by decide
/-- R42: PSTATE 7 is a fault in TXDIR too. -/
theorem test_reserved_parser_state :
    (match step { at_ .txdir with pstate := .reserved } with
    | .fault r => r == .reservedPState
    | .next _ => false
    | .refused _ => false) = true := by decide
/-- V17b: a silent bus. -/
theorem test_parse_timeout : after (step (parsing .seekSync1 [.timeout])) (fun t => statusWord t == 0x16 && t.pfail == .timeout) = true := by
  decide
/-- V34: READ_POS takes the two payload bytes of the reply. -/
theorem test_filter_readPos :
    after (step { at_ .filter with opr := 3, flen := 5, fb := [(0, 1), (1, 5), (2, 0x1C), (3, 0xF4), (4, 1), (5, 0xE8)] })
      (fun t => statusWord t == 0x02 && t.result == 0x01F4) = true := by decide
/-- V33b: QUERY_ID discards a reply with no payload. -/
theorem test_filter_queryId :
    after (step { at_ .filter with opr := 1, flen := 3, fb := [(0, 5), (1, 3), (2, 0x0E), (3, 0xE9)] }) (fun t => t.estate == .arm) = true := by
  decide
/-- V65, V66: the second attempt flushes under EVERY_ATTEMPT and not under FIRST_ATTEMPT. -/
theorem test_arm_policy :
    after (stepUnder .everyAttempt { at_ .arm with rxStream := [.byte 1, .byte 2], flushDraws := [1] }) (fun t => t.rxStream == [.byte 2]) = true ∧
    after (stepUnder .firstAttempt { at_ .arm with rxStream := [.byte 1, .byte 2], flushDraws := [1] })
      (fun t => t.rxStream == [.byte 1, .byte 2]) = true := by decide
/-- V63, V64: reserved and write-only indices read 0, read-only ones ignore writes. -/
theorem test_host_port :
    hostValue { State.reset with done := true } 0x03 = 0 ∧ hostValue State.reset 0x40 = 0 ∧ hostValue State.reset 0x02 = 0 ∧
    hostValue { State.reset with done := true } 0x00 = 2 ∧ after (hostWrite 0x85 0x12 State.reset) (fun t => t == State.reset) = true := by
  decide


/-! Witnesses: for each statement with hypotheses, states and operands that meet them together, at the ends of their ranges. -/

/-- Reset state with these turns to come. -/
def turns (l : List Turn) : State := { State.reset with schedule := l }

/-- START in flight, at its TXSEND step. -/
def sending : State := { at_ .txsend with dir := .transmit, opr := 6, first := true }

/-- RX_FRAME in flight, at the start of an attempt, with one byte to read. -/
def receiving : State := { parsing .seekSync1 [.byte 0x55] with opr := 10 }

/-- SET_ID 0xFD in flight, at its TXSEND step. -/
def assigning : State := { sending with opr := 2, ra := 0xFD }

/-- RX_FRAME in flight, in READ_BODY with the frame `01 03` begun. -/
def inBody : State := { receiving with pstate := .readBody, cnt := 2, flen := 3, acc := 4, fb := [(0, 1), (1, 3)], rxStream := [.byte 0x1C] }

theorem witness_inv_reset : Inv State.reset := by constructor <;> simp [State.reset, Memory.wf]

theorem witness_inv_sending : Inv sending := by
  constructor <;> simp [sending, at_, State.reset, Memory.wf]
  all_goals exact ⟨.start, rfl, rfl⟩

theorem witness_inv_assigning : Inv assigning := by
  constructor <;> simp [assigning, sending, at_, State.reset, Memory.wf]
  all_goals exact ⟨.setId 0xFD, rfl, rfl⟩

theorem witness_inv_receiving : Inv receiving := by
  constructor <;> simp [receiving, parsing, at_, State.reset, Memory.wf]
  all_goals first | exact ⟨.rxFrame, rfl, rfl⟩ | rfl

theorem witness_inv_inBody : Inv inBody := by
  constructor <;> simp [inBody, receiving, parsing, at_, State.reset, Memory.wf]
  all_goals first | exact ⟨.rxFrame, rfl, rfl⟩ | rfl

theorem witness_DecodeAndEncodeAgree :
    (∃ i : Instr, i.wellFormed = true) ∧ ∃ c i, decode c = .ok i := ⟨⟨.txRaw 0xFE 0xFF 59, rfl⟩, .request 0x3BFFFE09, _, rfl⟩

/-- A write of REQ in IDLE and while busy, with an accepted and a refused word. -/
theorem witness_RequestWordsAreCheckedInOrder :
    (∃ (s : State) (n v : Nat) (rest : List Turn), s.rst = false ∧ s.schedule = .host (.write 0x02 n v) :: rest ∧ s.estate = .idle ∧ SpecText.requestCheck v = none) ∧
    (∃ (s : State) (n v : Nat) (rest : List Turn), s.rst = false ∧ s.schedule = .host (.write 0x02 n v) :: rest ∧ s.estate = .idle ∧
      SpecText.requestCheck v = some .badOp) ∧
    ∃ (s : State) (n v : Nat) (rest : List Turn), s.rst = false ∧ s.schedule = .host (.write 0x02 n v) :: rest ∧ s.estate ≠ .idle :=
  ⟨⟨turns [.host (.write 0x02 6 0x00000000FE03)], 6, _, [], rfl, rfl, rfl, rfl⟩,
    ⟨turns [.host (.write 0x02 6 0x00000000000B)], 6, _, [], rfl, rfl, rfl, rfl⟩,
    { turns [.host (.write 0x02 6 1)] with estate := .arm }, 6, _, [], rfl, rfl, by decide⟩

theorem witness_QueryOperationsAreAccepted :
    State.reset.estate = .idle ∧ (0xFD : Byte).toNat ≤ 253 ∧ (0xFE : Byte).toNat ≤ 254 := by decide

theorem witness_MotionOperationsAreAccepted : State.reset.estate = .idle ∧ (0xFE : Byte).toNat ≤ 254 ∧ (1 : Byte).toNat ≤ 1 := by decide

theorem witness_RawOperationsAreAccepted : State.reset.estate = .idle ∧ (0xFE : Byte).toNat ≤ 254 ∧ (59 : BitVec 6).toNat ≤ 59 := by decide

theorem witness_OperandsOutOfRangeAreRefused :
    State.reset.estate = .idle ∧ (0xFE : Byte).toNat > 253 ∧ ((0xFE : Byte).toNat ≤ 254 ∧ (2 : Byte).toNat > 1) ∧
    (0xFE : Byte).toNat ≤ 254 ∧ (60 : BitVec 6).toNat > 59 := by decide

theorem witness_RequestsWhileBusyAreDropped : SpecText.isRequest .stop = true ∧ (at_ .filter).estate ≠ .idle := by decide

/-- An accepted, a refused and a dropped request. -/
theorem witness_RequestInstructionsFrame :
    (∃ i s t, SpecText.isRequest i = true ∧ exec i s = .next t ∧ s.estate = .idle ∧ i.wellFormed = true) ∧
    (∃ i s t, SpecText.isRequest i = true ∧ exec i s = .next t ∧ ¬ (s.estate = .idle ∧ i.wellFormed = true) ∧ s.estate = .idle) ∧
    ∃ i s t, SpecText.isRequest i = true ∧ exec i s = .next t ∧ ¬ (s.estate = .idle ∧ i.wellFormed = true) ∧ s.estate ≠ .idle :=
  ⟨⟨.enable 0xFE 1, State.reset, _, rfl, rfl, rfl, rfl⟩, ⟨.enable 0xFE 2, State.reset, _, rfl, rfl, by decide, rfl⟩,
    .enable 0xFE 1, at_ .rxdir, _, rfl, rfl, by decide, by decide⟩

theorem witness_WireCommandsFrame : ∃ i s t, SpecText.isRequest i = false ∧ exec i s = .next t := ⟨.posRead, at_ .txsend, _, rfl, rfl⟩

theorem witness_StepRunsTheRequestWritten :
    ∃ (s : State) (n v : Nat) (rest : List Turn) (i : Instr), s.rst = false ∧ s.schedule = .host (.write 0x02 n v) :: rest ∧ decodeReq (BitVec.ofNat 48 v) = .ok i :=
  ⟨turns [.host (.write 0x02 6 0x01F403E80104)], 6, _, [], .move 1 1000 500, rfl, rfl, rfl⟩

/-- With SBPF's turn listed, and with none listed. -/
theorem witness_StepRunsTheCommandSent :
    (∃ (s : State) (rest : List Turn) (c : Byte) (i : Instr), s.rst = false ∧ s.estate = .txsend ∧ s.pstate ≠ .reserved ∧
      s.schedule = .sbpf :: rest ∧ commandOf s.opr = some c ∧ decodeCmd c = .ok i) ∧
    ∃ (s : State) (rest : List Turn) (c : Byte) (i : Instr), s.rst = false ∧ s.estate = .txsend ∧ s.pstate ≠ .reserved ∧
      (s.schedule = [] ∧ rest = []) ∧ commandOf s.opr = some c ∧ decodeCmd c = .ok i :=
  ⟨⟨{ sending with schedule := [.sbpf] }, [], 11, .moveStart, rfl, rfl, nofun, rfl, rfl, rfl⟩,
    sending, [], 11, .moveStart, rfl, rfl, nofun, ⟨rfl, rfl⟩, rfl, rfl⟩

theorem witness_PlacedWordIsRunNext :
    (∃ nbits w i, nbits ≤ 8 ∧ decodeTableWord nbits w = some i) ∧ ∃ nbits w i, ¬ nbits ≤ 8 ∧ decodeTableWord nbits w = some i :=
  ⟨⟨8, 0x1F, _, by decide, rfl⟩, 48, 0x0A, _, by decide, rfl⟩

theorem witness_ChecksumIsTheComplementOfTheSum :
    SpecText.total [0x80, 0x80] % 256 = 0 ∧ SpecText.total [0xFF] % 256 = 255 := by decide

theorem witness_ChecksumLaw :
    ∃ (body : List Byte) (k : Nat) (b : Byte) (h : k < body.length), sum8 body = 0xFF ∧ body[k] ≠ b :=
  ⟨[0x01, 0x03, 0x1C, 0xDF], 3, 0xE2, by decide, by decide, by decide⟩

theorem witness_EncodedFrameLayout : ([] : List Byte).length ≤ 59 ∧ (List.replicate 59 (0xAA : Byte)).length ≤ 59 := by decide

/-- 124, 125, 875 and 876, and a negative position. -/
theorem witness_ClampedPosition :
    ((124 : Half).toInt < 125 ∧ (0x8000 : Half).toInt < 125) ∧ (876 : Half).toInt > 875 ∧
    (125 ≤ (125 : Half).toInt ∧ (125 : Half).toInt ≤ 875) ∧ 125 ≤ (875 : Half).toInt ∧ (875 : Half).toInt ≤ 875 := by decide

theorem witness_TxdirStep : (at_ .txdir).rst = false ∧ (at_ .txdir).pstate ≠ .reserved ∧ (at_ .txdir).estate = .txdir := by decide

/-- A state in TXSEND for every operation, TX_RAW with 0 and with 59 bytes. -/
theorem witness_TxsendStepSendsTheRequestFrame :
    (∀ op : BitVec 4, ∃ s : State, s.rst = false ∧ s.pstate ≠ .reserved ∧ s.estate = .txsend ∧ s.opr = op) ∧
    (∃ s : State, s.rst = false ∧ s.pstate ≠ .reserved ∧ s.estate = .txsend ∧ s.opr = 9 ∧ s.ra.toNat / 256 % 64 = 0) ∧
    ∃ s : State, s.rst = false ∧ s.pstate ≠ .reserved ∧ s.estate = .txsend ∧ s.opr = 9 ∧ s.ra.toNat / 256 % 64 = 59 :=
  ⟨fun op => ⟨{ at_ .txsend with opr := op }, rfl, nofun, rfl, rfl⟩, ⟨{ at_ .txsend with opr := 9 }, rfl, nofun, rfl, rfl, rfl⟩,
    { at_ .txsend with opr := 9, ra := 0x3B42 }, rfl, nofun, rfl, rfl, rfl⟩

theorem witness_RxdirStep :
    ∀ op : BitVec 4, ∃ s : State, s.rst = false ∧ s.pstate ≠ .reserved ∧ s.estate = .rxdir ∧ s.opr = op :=
  fun op => ⟨{ at_ .rxdir with opr := op }, rfl, nofun, rfl, rfl⟩

theorem witness_ArmStep :
    ∀ f : Bool, ∃ s : State, s.rst = false ∧ s.pstate ≠ .reserved ∧ s.estate = .arm ∧ s.first = f :=
  fun f => ⟨{ at_ .arm with first := f }, rfl, nofun, rfl, rfl⟩

/-- Nothing dropped, and all of the stream, a timeout in it too. -/
theorem witness_FlushDiscardsADrawnPart :
    (∃ (s : State) (rest : List ReadResult), s.rxStream = [] ++ rest ∧ rest = [.byte 1]) ∧
    ∃ (s : State) (dropped : List ReadResult), s.rxStream = dropped ++ [] ∧ dropped = [.byte 1, .timeout] :=
  ⟨⟨{ at_ .arm with rxStream := [.byte 1] }, _, rfl, rfl⟩, { at_ .arm with rxStream := [.byte 1, .timeout] }, _, rfl, rfl⟩

/-- Both states of the sync detector, on any byte. -/
theorem witness_SyncDetectorTransitions :
    ∀ b : Byte, (∃ s : State, s.rst = false ∧ s.estate = .parse ∧ readResult s = .byte b ∧ s.pstate = .seekSync1) ∧
      ∃ s : State, s.rst = false ∧ s.estate = .parse ∧ readResult s = .byte b ∧ s.pstate = .seekSync2 :=
  fun b => ⟨⟨parsing .seekSync1 [.byte b], rfl, rfl, rfl, rfl⟩, parsing .seekSync2 [.byte b], rfl, rfl, rfl, rfl⟩

/-- The length byte at 2, 3, 63 and 64. -/
theorem witness_HeaderByteTransitions :
    (∀ b : Byte, (∃ s : State, s.rst = false ∧ s.estate = .parse ∧ readResult s = .byte b ∧ s.pstate = .readId) ∧
      ∃ s : State, s.rst = false ∧ s.estate = .parse ∧ readResult s = .byte b ∧ s.pstate = .readLength) ∧
    (3 ≤ (3 : Byte).toNat ∧ (3 : Byte).toNat ≤ 63) ∧ (3 ≤ (63 : Byte).toNat ∧ (63 : Byte).toNat ≤ 63) ∧
    (2 : Byte).toNat < 3 ∧ 63 < (64 : Byte).toNat :=
  ⟨fun b => ⟨⟨parsing .readId [.byte b], rfl, rfl, rfl, rfl⟩, parsing .readLength [.byte b], rfl, rfl, rfl, rfl⟩, by decide⟩

/-- FLEN at 3 and at 63; before the last byte, and on it with a good and with a bad sum. -/
theorem witness_BodyByteTransitions :
    (∃ s : State, s.rst = false ∧ s.estate = .parse ∧ readResult s = .byte 0x1C ∧ s.pstate = .readBody ∧ s.flen.toNat ≤ 63 ∧
      s.cnt.toNat + 1 < s.flen.toNat + 1) ∧
    (∃ s : State, s.rst = false ∧ s.estate = .parse ∧ readResult s = .byte 0xDF ∧ s.pstate = .readBody ∧ s.flen.toNat ≤ 63 ∧
      s.cnt.toNat + 1 = s.flen.toNat + 1 ∧ s.acc + 0xDF = 0xFF) ∧
    ∃ s : State, s.rst = false ∧ s.estate = .parse ∧ readResult s = .byte 0xE2 ∧ s.pstate = .readBody ∧ s.flen.toNat ≤ 63 ∧
      s.cnt.toNat + 1 = s.flen.toNat + 1 ∧ s.acc + 0xE2 ≠ 0xFF :=
  ⟨⟨inBody, rfl, rfl, rfl, rfl, by decide, by decide⟩,
    ⟨{ inBody with cnt := 3, acc := 0x20, rxStream := [.byte 0xDF] }, rfl, rfl, rfl, rfl, by decide, by decide, by decide⟩,
    { inBody with cnt := 63, flen := 63, acc := 0x20, rxStream := [.byte 0xE2] }, rfl, rfl, rfl, rfl, by decide, by decide, by decide⟩

theorem witness_TimeoutEndsTheOperation :
    ∀ p : PState, ∃ s : State, s.rst = false ∧ s.estate = .parse ∧ readResult s = .timeout ∧ s.pstate = p :=
  fun p => ⟨parsing p [.timeout], rfl, rfl, rfl, rfl⟩

theorem witness_FilterStep :
    ∀ op : BitVec 4, ∃ s : State, s.rst = false ∧ s.pstate ≠ .reserved ∧ s.estate = .filter ∧ s.opr = op :=
  fun op => ⟨{ at_ .filter with opr := op, pstate := .complete }, rfl, nofun, rfl, rfl⟩

/-- ESTATE 7, and PSTATE 7 in every step SBPF takes. -/
theorem witness_ReservedStatesFault :
    (∃ s : State, s.rst = false ∧ s.estate = .reserved) ∧
    ∀ e ∈ [EState.txdir, .txsend, .rxdir, .arm, .parse, .filter],
      ∃ s : State, s.rst = false ∧ s.pstate = .reserved ∧ s.estate = e ∧ s.estate ≠ .idle ∧ s.estate ≠ .reserved :=
  ⟨⟨at_ .reserved, rfl, rfl⟩, fun e he => ⟨{ at_ e with pstate := .reserved }, rfl, rfl, rfl, by revert e; decide, by revert e; decide⟩⟩

/-- Every index. -/
theorem witness_HostReadValues :
    (∀ idx : BitVec 8, ∃ s : State, s.rst = false ∧ s.schedule = [.host (.read idx 1)]) ∧ ∃ s : State, Inv s ∧ s.estate ≠ .idle :=
  ⟨fun idx => ⟨turns [.host (.read idx 1)], rfl, rfl⟩, receiving, witness_inv_receiving, by decide⟩

/-- Writes of every index but 2, in IDLE and while busy; reads of 2, 127 and 192. -/
theorem witness_HostWriteEffects :
    (∀ idx : BitVec 8, idx.toNat ≠ 2 →
      (∃ s : State, s.rst = false ∧ s.schedule = [.host (.write idx 1 7)] ∧ s.estate = .idle) ∧
      ∃ s : State, s.rst = false ∧ s.schedule = [.host (.write idx 1 7)] ∧ s.estate ≠ .idle) ∧
    (∀ idx : BitVec 8, ∃ s : State, s.rst = false ∧ s.schedule = [.host (.read idx 1)]) ∧
    (1 < (0x02 : BitVec 8).toNat ∧ (0x02 : BitVec 8).toNat < 128) ∧ (1 < (0x7F : BitVec 8).toNat ∧ (0x7F : BitVec 8).toNat < 128) ∧
    1 < (0xC0 : BitVec 8).toNat ∧ 191 < (0xC0 : BitVec 8).toNat :=
  ⟨fun idx _ => ⟨⟨turns [.host (.write idx 1 7)], rfl, rfl, rfl⟩, { turns [.host (.write idx 1 7)] with estate := .parse }, rfl, rfl,
      show EState.parse ≠ EState.idle by decide⟩,
    fun idx => ⟨turns [.host (.read idx 1)], rfl, rfl⟩, by decide⟩

/-- Asserting reset and releasing it; turns under reset; a low level again. -/
theorem witness_ResetInputBehaviour :
    (∃ s : State, s.schedule = [.resetInput true] ∧ s.rst = false) ∧ (∃ s : State, s.schedule = [.resetInput false] ∧ s.rst = true) ∧
    (∃ s : State, s.rst = true ∧ s.schedule = [.host (.write 0x02 6 1)]) ∧ (∃ s : State, s.rst = true ∧ s.schedule = [.sbpf]) ∧
    (∃ s : State, s.rst = true ∧ s.schedule = []) ∧ ∃ s : State, s.rst = false ∧ s.schedule = [.resetInput false] :=
  ⟨⟨turns [.resetInput true], rfl, rfl⟩, ⟨{ turns [.resetInput false] with rst := true }, rfl, rfl⟩,
    ⟨{ turns [.host (.write 0x02 6 1)] with rst := true }, rfl, rfl⟩, ⟨{ turns [.sbpf] with rst := true }, rfl, rfl⟩,
    ⟨{ turns [] with rst := true }, rfl, rfl⟩, turns [.resetInput false], rfl, rfl⟩

theorem witness_StepKeepsTheInvariant : ∃ s t : State, Inv s ∧ step s = .next t ∧ t.estate ≠ s.estate :=
  ⟨sending, _, witness_inv_sending, rfl, by decide⟩

theorem witness_NoStepFromTheInvariantStops : Inv State.reset ∧ Inv sending ∧ Inv receiving ∧ Inv inBody :=
  ⟨witness_inv_reset, witness_inv_sending, witness_inv_receiving, witness_inv_inBody⟩

theorem witness_OneTransportCallPerStep : ∃ s t : State, stepUnder .everyAttempt s = .next t ∧ t.busLog ≠ s.busLog :=
  ⟨sending, _, rfl, by decide⟩

theorem witness_RequestAndPayloadFrozenWhileBusy :
    ∃ s t : State, stepUnder .everyAttempt s = .next t ∧ s.estate ≠ .idle ∧ t.resets = s.resets := ⟨sending, _, rfl, by decide, rfl⟩

/-- A step that stores a byte of the body, and a step outside PARSE. -/
theorem witness_FrameBufferWrittenOnlyAtCnt :
    (∃ s t : State, Inv s ∧ stepUnder .everyAttempt s = .next t ∧ t.resets = s.resets ∧ t.fb ≠ s.fb) ∧
    ∃ s t : State, Inv s ∧ stepUnder .everyAttempt s = .next t ∧ t.resets = s.resets ∧ s.estate ≠ .parse :=
  ⟨⟨inBody, _, witness_inv_inBody, rfl, rfl, by decide⟩, sending, _, witness_inv_sending, rfl, rfl, by decide⟩

/-- DONE rises with success and with an error, and falls on an accepted request and on reset. -/
theorem witness_DoneRisesWithTheOutcome :
    (∃ s t : State, stepUnder .everyAttempt s = .next t ∧ doneOutput s = false ∧ doneOutput t = true ∧ t.fail = false) ∧
    (∃ s t : State, stepUnder .everyAttempt s = .next t ∧ doneOutput s = false ∧ doneOutput t = true ∧ t.fail = true) ∧
    (∃ s t : State, stepUnder .everyAttempt s = .next t ∧ doneOutput s = true ∧ doneOutput t = false ∧ t.resets = s.resets) ∧
    ∃ s t : State, stepUnder .everyAttempt s = .next t ∧ doneOutput s = true ∧ doneOutput t = false ∧ t.resets = s.resets + 1 :=
  ⟨⟨{ at_ .rxdir with opr := 6 }, _, rfl, rfl, rfl, rfl⟩, ⟨parsing .seekSync1 [.timeout], _, rfl, rfl, rfl, rfl⟩,
    ⟨{ turns [.host (.write 0x02 6 6)] with done := true }, _, rfl, rfl, rfl, rfl⟩,
    { turns [.resetInput true] with done := true }, _, rfl, rfl, rfl, rfl⟩

/-- A step that ends an operation with FB as it was, one that fails with LENGTH and one with CHECKSUM, storing their byte. -/
theorem witness_FrameBufferIsFinalAtCompletion :
    (∃ s t : State, stepUnder .everyAttempt s = .next t ∧ doneOutput s = false ∧ doneOutput t = true ∧ t.fb = s.fb) ∧
    (∃ s t : State, stepUnder .everyAttempt s = .next t ∧ doneOutput s = false ∧ doneOutput t = true ∧ t.fb ≠ s.fb ∧ t.code = .length) ∧
    (∃ s t : State, stepUnder .everyAttempt s = .next t ∧ doneOutput s = false ∧ doneOutput t = true ∧ t.fb ≠ s.fb ∧
      t.code = .checksum) ∧
    ∃ s t : State, parseStep s = .next t ∧ t.fb ≠ s.fb ∧ t.done = true :=
  ⟨⟨{ at_ .rxdir with opr := 6 }, _, rfl, rfl, rfl, rfl⟩, ⟨parsing .readLength [.byte 64], _, rfl, rfl, rfl, by decide, rfl⟩,
    ⟨{ inBody with cnt := 3, rxStream := [.byte 0xE2] }, _, rfl, rfl, rfl, by decide, rfl⟩,
    parsing .readLength [.byte 64], _, rfl, by decide, rfl⟩

theorem witness_IdleTakesNoStep : State.reset.estate = .idle := rfl

/-- A read, and a write of TXPL, after an operation has ended, and then SBPF's turn. -/
theorem witness_PublishedOutcomeStays :
    (∃ s t : State, s.schedule = [.host (.read 0x01 2)] ∧ stepUnder .everyAttempt s = .next t ∧ s.estate = .idle ∧ t.resets = s.resets ∧
      s.done = true) ∧
    (∃ s t : State, s.schedule = [.host (.write 0x40 1 7)] ∧ stepUnder .everyAttempt s = .next t ∧ s.estate = .idle ∧
      t.resets = s.resets ∧ s.done = true) ∧
    (∃ s t : State, s.schedule = [] ∧ stepUnder .everyAttempt s = .next t ∧ s.estate = .idle ∧ t.resets = s.resets ∧ s.done = true) ∧
    ∀ n v, [Turn.host (.read 0x01 2)].head? ≠ some (.host (.write 0x02 n v)) ∧
      [Turn.host (.write 0x40 1 7)].head? ≠ some (.host (.write 0x02 n v)) ∧ ([] : List Turn).head? ≠ some (.host (.write 0x02 n v)) :=
  ⟨⟨{ turns [.host (.read 0x01 2)] with done := true, result := 0x01F4 }, _, rfl, rfl, rfl, rfl, rfl⟩,
    ⟨{ turns [.host (.write 0x40 1 7)] with done := true, result := 0x01F4 }, _, rfl, rfl, rfl, rfl, rfl⟩,
    ⟨{ turns [] with done := true, result := 0x01F4 }, _, rfl, rfl, rfl, rfl, rfl⟩, by simp⟩

/-- A read of RESULT and a write of TXPL after an operation has ended. -/
theorem witness_FinalValuesAreReadUntilTheNextRequest :
    ∃ s : State, s.estate = .idle ∧ s.done = true ∧ s.schedule = [.host (.read 0x01 2), .host (.write 0x40 1 7)] ∧
      ∀ x ∈ s.schedule, (∀ k v, x ≠ .host (.write 0x02 k v)) ∧ ∀ l, x ≠ .resetInput l :=
  ⟨{ turns [.host (.read 0x01 2), .host (.write 0x40 1 7)] with done := true, result := 0x01F4 }, rfl, rfl, rfl, by simp [turns]⟩

/-- OVR set by a request while busy, cleared by a request in IDLE and by reset. -/
theorem witness_OverrunOnlyFromADroppedRequest :
    (∃ s t : State, stepUnder .everyAttempt s = .next t ∧ s.ovr = false ∧ t.ovr = true) ∧
    (∃ s t : State, stepUnder .everyAttempt s = .next t ∧ s.ovr = true ∧ t.ovr = false ∧ s.estate = .idle) ∧
    ∃ s t : State, stepUnder .everyAttempt s = .next t ∧ s.ovr = true ∧ t.ovr = false ∧ t.resets = s.resets + 1 :=
  ⟨⟨{ turns [.host (.write 0x02 6 6)] with estate := .arm }, _, rfl, rfl, rfl⟩,
    ⟨{ turns [.host (.write 0x02 6 6)] with ovr := true }, _, rfl, rfl, rfl, rfl⟩,
    { turns [.resetInput true] with ovr := true, estate := .arm }, _, rfl, rfl, rfl, rfl⟩

/-- A step that sends and one that reads. -/
theorem witness_LineDirectionDiscipline :
    (∃ s t : State, ∃ f, Inv s ∧ stepUnder .everyAttempt s = .next t ∧ t.busLog = .send f :: s.busLog) ∧
    ∃ s t : State, ∃ w, Inv s ∧ stepUnder .everyAttempt s = .next t ∧ t.busLog = .read w :: s.busLog :=
  ⟨⟨sending, _, _, witness_inv_sending, rfl, rfl⟩, receiving, _, _, witness_inv_receiving, rfl, rfl⟩

/-- A broadcast operation, and SET_ID at its highest new id. -/
theorem witness_IdentifierDiscipline :
    (∃ s t : State, ∃ f, Inv s ∧ stepUnder .everyAttempt s = .next t ∧ t.busLog = .send f :: s.busLog ∧ s.opr = 6) ∧
    ∃ s t : State, ∃ f, Inv s ∧ stepUnder .everyAttempt s = .next t ∧ t.busLog = .send f :: s.busLog ∧ s.opr = 2 :=
  ⟨⟨sending, _, _, witness_inv_sending, rfl, rfl, rfl⟩, assigning, _, _, witness_inv_assigning, rfl, rfl, rfl⟩

/-- Each operation that awaits nothing, at the ends of its operands' ranges. -/
theorem witness_NoResponseOperationsCompleteInThreeSteps :
    ∃ s : State, s.estate = .idle ∧ s.rst = false ∧ s.pstate ≠ .reserved ∧ s.schedule = [] ∧
      ∀ i ∈ [Instr.setId 0xFD, .move 0xFE 0x8000 0xFFFF, .moveWait 0xFE 0x7FFF 0, .start, .stop, .enable 0xFE 1, .txRaw 0xFE 0xFF 0],
        i.wellFormed = true ∧ ∃ f, SpecText.frameOf s i = some f := by
  refine ⟨State.reset, rfl, rfl, nofun, rfl, fun i hi => ?_⟩
  simp only [List.mem_cons, List.not_mem_nil, or_false] at hi
  rcases hi with rfl | rfl | rfl | rfl | rfl | rfl | rfl <;> exact ⟨rfl, _, rfl⟩

/-- TX_RAW with its longest payload. -/
theorem witness_txRaw_longest : (Instr.txRaw 0xFE 0xFF 59).wellFormed = true ∧ ∃ f, SpecText.frameOf State.reset (.txRaw 0xFE 0xFF 59) = some f :=
  ⟨rfl, _, rfl⟩

/-- Noise before the frame, and the longest payload. -/
theorem witness_EncodedFrameIsReceived :
    ∃ (s : State) (noise : List Byte) (id cmd : Byte) (p : List Byte) (rest : List ReadResult),
      s.rst = false ∧ s.pstate ≠ .reserved ∧ s.schedule = [] ∧ s.estate = .arm ∧ flushAmount s = 0 ∧ p.length ≤ 60 ∧
      (∀ b ∈ noise, b ≠ 0x55) ∧ noise ≠ [] ∧
      p.length = 60 ∧ s.rxStream = SpecText.bytes (noise ++ encodeFrame id cmd p) ++ rest :=
  ⟨{ at_ .arm with flushDraws := [0], rxStream := SpecText.bytes ([0x00, 0xFF] ++ encodeFrame 7 0x42 (List.replicate 60 0x55)) ++ [.timeout] },
    [0x00, 0xFF], 7, 0x42, List.replicate 60 0x55, [.timeout], rfl, nofun, rfl, rfl, rfl, by decide, by decide, by decide, rfl, rfl⟩

/-- V5: the first body byte changed, and the checksum changed. -/
theorem witness_CorruptedFrameFailsTheChecksum :
    ∀ k ∈ [0, 3],
      ∃ (s : State) (id cmd : Byte) (p : List Byte) (b : Byte) (rest : List ReadResult),
        s.rst = false ∧ s.pstate ≠ .reserved ∧ s.schedule = [] ∧ s.estate = .arm ∧ flushAmount s = 0 ∧ p.length ≤ 60 ∧ k < p.length + 4 ∧ k ≠ 1 ∧
        (encodeFrame id cmd p)[k + 2]? ≠ some b ∧ s.rxStream = SpecText.bytes ((encodeFrame id cmd p).set (k + 2) b) ++ rest := by
  intro k hk
  refine ⟨{ at_ .arm with flushDraws := [0], rxStream := SpecText.bytes ((encodeFrame 1 0x1C []).set (k + 2) 0xE2) },
    1, 0x1C, [], 0xE2, [], rfl, nofun, rfl, rfl, rfl, by decide, ?_, ?_, ?_, (List.append_nil _).symm⟩ <;>
    (simp only [List.mem_cons, List.not_mem_nil, or_false] at hk; rcases hk with rfl | rfl <;> decide)

/-- V34, V39a: an addressed and a broadcast query. -/
theorem witness_ReadPosReturnsTheRepliedPosition :
    ∀ id ∈ [(0x01 : Byte), 0xFE],
      ∃ (s : State) (from_ lo hi : Byte) (draws : List Nat) (rest : List ReadResult),
        id.toNat ≤ 254 ∧ s.estate = .idle ∧ s.rst = false ∧ s.pstate ≠ .reserved ∧ s.schedule = [] ∧ s.flushDraws = 0 :: 0 :: draws ∧
        s.rxStream = SpecText.bytes (encodeFrame id 28 [] ++ encodeFrame from_ 28 [lo, hi]) ++ rest := by
  intro id hid
  refine ⟨{ State.reset with
      flushDraws := [0, 0], rxStream := SpecText.bytes (encodeFrame id 28 [] ++ encodeFrame 7 28 [0x2C, 1]) },
    7, 0x2C, 1, [], [], ?_, rfl, rfl, nofun, rfl, rfl, (List.append_nil _).symm⟩
  simp only [List.mem_cons, List.not_mem_nil, or_false] at hid
  rcases hid with rfl | rfl <;> decide

/-- V30, V32: payloads of one byte and of sixty, and the replying identifier 0xFF. -/
theorem witness_QueryIdReturnsTheRepliersIdentifier :
    ∀ n ∈ [1, 60],
      ∃ (s : State) (from_ : Byte) (p : List Byte) (draws : List Nat) (rest : List ReadResult),
        from_ ≠ 0xFE ∧ 1 ≤ p.length ∧ p.length ≤ 60 ∧ p.length = n ∧ s.estate = .idle ∧ s.rst = false ∧ s.pstate ≠ .reserved ∧
        s.schedule = [] ∧
        s.flushDraws = 0 :: 0 :: draws ∧ s.rxStream = SpecText.bytes (encodeFrame 0xFE 14 [] ++ encodeFrame from_ 14 p) ++ rest := by
  intro n hn
  refine ⟨{ State.reset with
      flushDraws := [0, 0], rxStream := SpecText.bytes (encodeFrame 0xFE 14 [] ++ encodeFrame 0xFF 14 (List.replicate n 5)) },
    0xFF, List.replicate n 5, [], [], by decide, ?_, ?_, ?_, rfl, rfl, nofun, rfl, rfl, (List.append_nil _).symm⟩ <;>
    (simp only [List.mem_cons, List.not_mem_nil, or_false] at hn; rcases hn with rfl | rfl <;> decide)

/-- V40: an empty payload, and the longest. -/
theorem witness_RxFrameReturnsAnyFrame :
    ∀ n ∈ [0, 60],
      ∃ (s : State) (id cmd : Byte) (p : List Byte) (draws : List Nat) (rest : List ReadResult),
        p.length ≤ 60 ∧ p.length = n ∧ s.estate = .idle ∧ s.rst = false ∧ s.pstate ≠ .reserved ∧
        s.schedule = [] ∧ s.flushDraws = 0 :: draws ∧
        s.rxStream = SpecText.bytes (encodeFrame id cmd p) ++ rest := by
  intro n hn
  refine ⟨{ State.reset with flushDraws := [0], rxStream := SpecText.bytes (encodeFrame 0xFE 0x0E (List.replicate n 0xAA)) },
    0xFE, 0x0E, List.replicate n 0xAA, [], [], ?_, ?_, rfl, rfl, nofun, rfl, rfl, (List.append_nil _).symm⟩ <;>
    (simp only [List.mem_cons, List.not_mem_nil, or_false] at hn; rcases hn with rfl | rfl <;> decide)

theorem witness_TxplHoldsWhatIsWritten : ∃ i j : Nat, i = 0 ∧ j = 58 ∧ j ≠ i := ⟨0, 58, rfl, rfl, by decide⟩

end Sys2Proof.Tests
end

section
/-! The transport calls of one turn (R8, R13), and SBPF's turn in IDLE (R8, R24, R340). -/

namespace Sys2Proof.Machine

/-- From `s` to `t` at most one transport call was recorded, and none was taken off the record. -/
def CallsAtMostOnce (s t : State) : Prop := t.busLog = s.busLog ∨ ∃ c, t.busLog = c :: s.busLog

/-! What each operation and each step adds to the record. -/

@[simp] theorem request_busLog (check : Option Code) (op : BitVec 4) (id : Byte) (a b : Half) (s : State) :
    (request check op id a b s).busLog = s.busLog := by
  obtain ⟨-, h⟩ | ⟨_, -, -, h⟩ | ⟨-, -, h⟩ := request_cases (check := check) (op := op) (id := id) (a := a) (b := b) (s := s)
  all_goals simp [h]

@[simp] theorem whenIdle_requestError_busLog (c : Code) (s : State) :
    (whenIdle (requestError c) s).busLog = s.busLog := by
  by_cases h : s.estate = .idle <;> simp [h]

@[simp] theorem driveReset_busLog (level : Bool) (s : State) : (driveReset level s).busLog = s.busLog := by
  unfold driveReset
  split <;> simp

@[simp] theorem txdirStep_busLog (s : State) : (txdirStep s).busLog = .setDir .transmit :: s.busLog := rfl

@[simp] theorem rxdirStep_busLog (s : State) : (rxdirStep s).busLog = .setDir .receive :: s.busLog := by
  unfold rxdirStep
  split <;> simp

@[simp] theorem afterTransition_busLog (s : State) : (afterTransition s).busLog = s.busLog := by
  unfold afterTransition
  split <;> simp

@[simp] theorem onSeekSync1_busLog (b : Byte) (s : State) : (onSeekSync1 b s).busLog = s.busLog := by
  unfold onSeekSync1
  split <;> simp

@[simp] theorem onSeekSync2_busLog (b : Byte) (s : State) : (onSeekSync2 b s).busLog = s.busLog := by
  unfold onSeekSync2
  split <;> simp

@[simp] theorem onReadLength_busLog (b : Byte) (s : State) : (onReadLength b s).busLog = s.busLog := by
  unfold onReadLength
  split <;> simp

theorem onReadBody_busLog {b : Byte} {s t : State} (h : onReadBody b s = .next t) : t.busLog = s.busLog := by
  obtain ⟨e, -⟩ | ⟨e, -⟩ | ⟨e, -⟩ | ⟨e, -⟩ := onReadBody_cases b s <;> rw [e] at h <;> cases h <;> simp

/-- The transition itself calls nothing: the PARSE step's one call is its read (R152). -/
theorem onByte_busLog {b : Byte} {s t : State} (h : onByte b s = .next t) : t.busLog = s.busLog := by
  cases hp : s.pstate <;> simp only [onByte, hp] at h
  case readBody => exact onReadBody_busLog h
  case seekSync1 | seekSync2 | readId | readLength => cases h; simp
  case complete | failed | reserved => cases h

theorem parseStep_busLog {s t : State} (h : parseStep s = .next t) : t.busLog = .read Config.tByteMs :: s.busLog := by
  obtain ⟨b, u, -, hu, rfl⟩ | ⟨-, rfl⟩ := parseStep_cases h
  · simp [onByte_busLog hu]
  · simp

theorem filterStep_busLog {s t : State} (h : filterStep s = .next t) : t.busLog = s.busLog := by
  obtain ⟨v, rfl⟩ | rfl := filterStep_next h <;> simp

theorem armStep_callsAtMostOnce (p : FlushPolicy) (s : State) : CallsAtMostOnce s (armStep p s) := by
  unfold armStep
  split
  · exact .inr ⟨.flush, rfl⟩
  · exact .inl rfl

theorem exec_callsAtMostOnce {i : Instr} {s t : State} (h : exec i s = .next t) : CallsAtMostOnce s t := by
  obtain ⟨check, op, id, a, b, e⟩ | ⟨id, cmd, p, e⟩ := exec_form i s <;> rw [e] at h <;> cases h
  · exact .inl (request_busLog ..)
  · exact .inr ⟨_, sendRequest_busLog ..⟩

theorem txsendStep_callsAtMostOnce {s t : State} (h : txsendStep s = .next t) : CallsAtMostOnce s t := by
  obtain ⟨-, -, rfl⟩ | ⟨_, _, -, -, -, hi⟩ := txsendStep_next h
  · exact .inr ⟨_, sendRequest_busLog ..⟩
  · exact exec_callsAtMostOnce hi

/-! The three turns. -/

theorem sbpfStep_callsAtMostOnce {p : FlushPolicy} {s t : State} (h : sbpfStep p s = .next t) : CallsAtMostOnce s t := by
  obtain rfl | ⟨-, rfl⟩ | ⟨-, h⟩ | ⟨-, rfl⟩ | ⟨-, rfl⟩ | ⟨-, h⟩ | ⟨-, h⟩ := sbpfStep_cases h
  · exact .inl rfl
  · exact .inr ⟨_, txdirStep_busLog s⟩
  · exact txsendStep_callsAtMostOnce h
  · exact .inr ⟨_, rxdirStep_busLog s⟩
  · exact armStep_callsAtMostOnce p s
  · exact .inr ⟨_, parseStep_busLog h⟩
  · exact .inl (filterStep_busLog h)

theorem hostAccess_callsAtMostOnce {a : HostAccess} {s t : State} (h : hostAccess a s = .next t) :
    CallsAtMostOnce s t := by
  obtain rfl | ⟨v, rfl⟩ | ⟨_, _, -, hi⟩ | ⟨c, rfl⟩ | ⟨i, b, -, -, rfl⟩ := hostAccess_cases h
  · exact .inl rfl
  · exact .inl rfl
  · exact exec_callsAtMostOnce hi
  · exact .inl (whenIdle_requestError_busLog c s)
  · exact .inl (txplWrite_busLog i b s)

/-- Settles O39, by the turn taken. Taking a turn off the schedule leaves the record, and so does a drive of reset. -/
theorem oneTransportCallPerStep : Obligations.OneTransportCallPerStep := by
  intro p s t h
  obtain ⟨rest, turn⟩ := stepUnder_cases h
  change CallsAtMostOnce { s with schedule := rest } t
  obtain h | ⟨a, h⟩ | ⟨level, rfl⟩ := turn
  · exact sbpfStep_callsAtMostOnce h
  · exact hostAccess_callsAtMostOnce h
  · exact .inl (driveReset_busLog level _)

theorem engineStep_idle {p : FlushPolicy} {s : State} (h : s.estate = .idle) : engineStep p s = .next s := by
  simp [engineStep, h]

/-- Settles O44: under reset SBPF's turn is void, and otherwise IDLE, which a reserved PSTATE does not fault, selects no step. -/
theorem idleTakesNoStep : Obligations.IdleTakesNoStep := by
  intro p s h
  unfold sbpfStep
  split
  · rfl
  · rw [if_neg fun ⟨_, hidle, _⟩ => hidle h, engineStep_idle h]

end Sys2Proof.Machine
end

section
/-! The state after reset (R41), the encodings of the state's fields (R23, R24, R27, R31, R111), and the reserved values (R42). -/

namespace Sys2Proof.Machine

/-- Settles O36: nothing is stored, nothing is in flight, and the line receives. -/
theorem resetMeetsTheInvariant : Obligations.ResetMeetsTheInvariant where
  fbForm := Memory.wf_nil _
  txplForm := Memory.wf_nil _
  engineState := nofun
  parserState := nofun
  parsing := nofun
  filtering := nofun
  receiving := fun _ _ => rfl
  transmitting := nofun
  busyStatus := fun h => absurd rfl h
  failStatus := by decide
  failResult := nofun
  latched := fun h => absurd rfl h
  sending := by decide
  awaiting := by decide
  cntBound := by decide
  cntSeeking := fun _ => rfl
  cntLength := nofun
  cntBody := nofun
  cntEnded := nofun
  cause := by decide
  sumHeld := nofun
  frameValid := nofun
  lengthHeld := nofun

/-- Settles O34: `State.reset` lists the values, and an empty buffer reads as its free values. -/
theorem resetState : Obligations.ResetState :=
  ⟨rfl, rfl, rfl, rfl, rfl, rfl, rfl, rfl, rfl, rfl, rfl, rfl, rfl, fun _ => ⟨rfl, rfl⟩, rfl, rfl, rfl⟩

theorem PFail.code_bits_toNat (f : PFail) : f.code.bits.toNat = f.bits.toNat := by cases f <;> rfl

/-- Settles O30: the tables, value by value. -/
theorem stateEncodings : Obligations.StateEncodings :=
  ⟨by decide, by decide, rfl, rfl, by decide, by decide, PFail.code_bits_toNat⟩

/-- Settles O29: out of reset, SBPF's turn faults on a reserved PSTATE unless ESTATE is IDLE or itself reserved, and ESTATE 7
selects its own fault. -/
theorem reservedStatesFault : Obligations.ReservedStatesFault := by
  intro p s hrst
  constructor
  · intro he
    simp [sbpfStep, engineStep, hrst, he]
  · intro hp hidle hres
    simp [sbpfStep, hrst, hp, hidle, hres]

end Sys2Proof.Machine
end

section
/-! One turn and the instruction it runs (R24, R136, R138, R252), and where a placed word is fetched (entry 20). -/

namespace Sys2Proof.Machine

theorem runCommand_ok {c : Byte} {i : Instr} (h : decodeCmd c = .ok i) (s : State) : runCommand c s = exec i s := by
  simp [runCommand, h]

theorem writeReq_ok {w : ReqWord} {i : Instr} (h : decodeReq w = .ok i) (s : State) : writeReq w s = exec i s := by
  simp [writeReq, h]

/-- TX_RAW fixes no command byte: its frame has the host's (R136, R209). -/
theorem ne_txRaw_of_commandOf {op : BitVec 4} {c : Byte} (h : commandOf op = some c) : op ≠ Op.txRaw := by
  rintro rfl
  simp [commandOf] at h

theorem txsendStep_command {s : State} {c : Byte} {i : Instr} (hc : commandOf s.opr = some c) (hi : decodeCmd c = .ok i) :
    txsendStep s = exec i s := by
  rw [txsendStep, if_neg (ne_txRaw_of_commandOf hc)]
  simp only [hc]
  exact runCommand_ok hi s

/-- SBPF has the turn, listed or not: its step on the state past that turn. -/
theorem stepUnder_sbpf {p : FlushPolicy} {s : State} {rest : List Turn}
    (h : s.schedule = .sbpf :: rest ∨ (s.schedule = [] ∧ rest = [])) :
    stepUnder p s = sbpfStep p { s with schedule := rest } := by
  obtain h | ⟨h, rfl⟩ := h
  · simp [stepUnder, h]
  · have hs : { s with schedule := [] } = s := by rw [← h]
    rw [hs]
    simp [stepUnder, h]

theorem stepUnder_host {p : FlushPolicy} {s : State} {a : HostAccess} {rest : List Turn} (h : s.schedule = .host a :: rest) :
    stepUnder p s = hostAccess a { s with schedule := rest } := by
  simp [stepUnder, h]

/-- Out of reset a write at 0x02 is a write of REQ (R60, R252). -/
theorem hostAccess_writeReq {s : State} (h : s.rst = false) (n v : Nat) :
    hostAccess (.write 0x02 n v) s = writeReq (BitVec.ofNat 48 v) s := by
  simp [hostAccess, hostWrite, h]

/-- Settles O13, by the steps' own equations: SBPF's turn is its engine step, TXSEND runs the command its operation fixes. -/
theorem stepRunsTheCommandSent : Obligations.StepRunsTheCommandSent := by
  intro s rest c i hrst he hp hturn hc hi
  calc step s = sbpfStep Config.flushPolicy { s with schedule := rest } := stepUnder_sbpf hturn
    _ = engineStep Config.flushPolicy { s with schedule := rest } := sbpfStep_engineStep hrst hp
    _ = txsendStep { s with schedule := rest } := by simp [engineStep, he]
    _ = exec i { s with schedule := rest } := txsendStep_command hc hi

/-- The operation that sends a wire command sends that command (R96). -/
theorem commandOf_operationOf {c : Byte} {i : Instr} (h : decodeCmd c = .ok i) : commandOf (operationOf c) = some c := by
  unfold decodeCmd at h
  split at h
  case h_9 => cases h
  all_goals
    next hc =>
      simp only [operationOf, hc]
      exact congrArg some (BitVec.eq_of_toNat_eq hc.symm)

theorem decode_of_decodeTableWord {nbits w : Nat} {i : Instr} (h : decodeTableWord nbits w = some i) :
    decode (tableWord nbits w) = .ok i := by
  unfold decodeTableWord at h
  split at h
  · next j hj => exact hj.trans (congrArg Except.ok (Option.some.inj h))
  · cases h

/-- A placed request word is the host's next write of REQ. -/
theorem step_placeWord_request {w : ReqWord} {i : Instr} (h : decodeReq w = .ok i) (s : State) :
    step (placeWord (.request w) s) = exec i { s with rst := false } := by
  calc step (placeWord (.request w) s) = hostAccess (.write 0x02 6 w.toNat) { s with rst := false } := stepUnder_host rfl
    _ = writeReq (BitVec.ofNat 48 w.toNat) { s with rst := false } := hostAccess_writeReq rfl _ _
    _ = writeReq w { s with rst := false } := by rw [BitVec.ofNat_toNat, BitVec.setWidth_eq]
    _ = exec i { s with rst := false } := writeReq_ok h _

/-- A placed command byte is sent by SBPF's next step. -/
theorem step_placeWord_command {c : Byte} {i : Instr} (h : decodeCmd c = .ok i) (s : State) :
    step (placeWord (.command c) s) =
      exec i { s with
        estate := .txsend, dir := .transmit, opr := operationOf c, rst := false
        pstate := if s.pstate = .reserved then .seekSync1 else s.pstate } := by
  refine stepRunsTheCommandSent (placeWord (.command c) s) s.schedule c i rfl rfl ?_ (.inl rfl) (commandOf_operationOf h) h
  show (if s.pstate = .reserved then .seekSync1 else s.pstate) ≠ PState.reserved
  split
  · nofun
  · assumption

/-- Settles O14, by the format of the word. -/
theorem placedWordIsRunNext : Obligations.PlacedWordIsRunNext := by
  intro s nbits w i h
  have hd := decode_of_decodeTableWord h
  unfold State.withFetchWord
  unfold tableWord at hd ⊢
  split
  · next hn =>
    rw [if_pos hn] at hd
    exact step_placeWord_command hd s
  · next hn =>
    rw [if_neg hn] at hd
    exact step_placeWord_request hd s

end Sys2Proof.Machine
end

section
/-! What a host access does (R190 to R192, R250 to R256), and which turn a step takes. -/

namespace Sys2Proof.Machine

/-- The word a request is packed in decodes to that request (R104 to R107). -/
theorem decodeReq_of_encode {i : Instr} {w : ReqWord} (h : encode i = .request w) : decodeReq w = .ok i := by
  cases i <;> simp only [encode, CodeWord.request.injEq, reduceCtorEq] at h
  all_goals
    subst h
    simp [decodeReq]

/-- No request word stands for a wire command (R105). -/
theorem isRequest_of_decodeReq {w : ReqWord} {i : Instr} (h : decodeReq w = .ok i) : SpecText.isRequest i = true := by
  unfold decodeReq at h
  split at h
  case h_11 => cases h
  all_goals
    obtain ⟨-, rfl⟩ := unlessReserved_ok h
    rfl

/-- No command byte stands for a request (R96). -/
theorem isRequest_of_decodeCmd {c : Byte} {i : Instr} (h : decodeCmd c = .ok i) : SpecText.isRequest i = false := by
  unfold decodeCmd at h
  split at h <;> cases h <;> rfl

/-- The result of a request's range checks fits its operands: a failure has a code of its own, and operands that pass are
in range (R106, R190). -/
def FitsOperands (i : Instr) : Option Code → Prop
  | none => i.wellFormed = true
  | some c => c ≠ .ok

theorem checkId_fits {i : Instr} {id : Byte} (h : i.wellFormed = addressableId id) : FitsOperands i (checkId id) := by
  unfold checkId
  split
  · nofun
  · next hid => simpa [FitsOperands, h, addressableId] using hid

theorem checkNewId_fits (newId : Byte) : FitsOperands (.setId newId) (checkNewId newId) := by
  unfold checkNewId
  split
  · nofun
  · next hid => simpa [FitsOperands, Instr.wellFormed] using hid

theorem checkEnable_fits (id mode : Byte) : FitsOperands (.enable id mode) (checkEnable id mode) := by
  unfold checkEnable
  split
  · nofun
  · split
    · nofun
    · next hid hmode => simpa [FitsOperands, Instr.wellFormed, addressableId] using ⟨hid, BitVec.not_lt.1 hmode⟩

theorem checkRaw_fits (id command : Byte) (n : BitVec 6) : FitsOperands (.txRaw id command n) (checkRaw id n) := by
  unfold checkRaw
  split
  · nofun
  · split
    · nofun
    · next hid hn => simpa [FitsOperands, Instr.wellFormed, addressableId] using ⟨hid, Nat.not_lt.1 hn⟩

/-- What a write of REQ can do (R190 to R192, R252). -/
inductive RequestWritten (s : State) : State → Prop where
  | dropped : s.estate ≠ .idle → RequestWritten s (setOverrun s)
  | refused (c : Code) : s.estate = .idle → c ≠ .ok → RequestWritten s (requestError c s)
  | accepted (op : BitVec 4) (id : Byte) (a b : Half) (e : EState) : s.estate = .idle →
      (e = if op = Op.rxFrame then .rxdir else .txdir) → latchedLegal (accept op id a b e s) →
      RequestWritten s (accept op id a b e s)

theorem request_written (i : Instr) {op : BitVec 4} {id : Byte} {a b : Half} {check : Option Code} (s : State)
    (hi : encode i = .request (packReq op id a b)) (hc : FitsOperands i check) :
    RequestWritten s (request check op id a b s) := by
  obtain ⟨hs, h⟩ | ⟨c, hs, rfl, h⟩ | ⟨hs, rfl, h⟩ :=
    request_cases (check := check) (op := op) (id := id) (a := a) (b := b) (s := s) <;> rw [h]
  · exact .dropped hs
  · exact .refused c hs hc
  · exact .accepted op id a b _ hs rfl ⟨i, decodeReq_of_encode hi, hc⟩

/-- A request instruction is a write of REQ, and always answers a next state. -/
theorem exec_request {i : Instr} (h : SpecText.isRequest i = true) (s : State) :
    ∃ t, exec i s = .next t ∧ RequestWritten s t := by
  cases hi : i
  case queryId | start | stop | rxFrame => exact ⟨_, rfl, request_written i s (hi ▸ rfl) (hi ▸ rfl)⟩
  case setId newId => exact ⟨_, rfl, request_written _ s rfl (checkNewId_fits newId)⟩
  case readPos | move | moveWait => exact ⟨_, rfl, request_written i s (hi ▸ rfl) (checkId_fits (hi ▸ rfl))⟩
  case enable id mode => exact ⟨_, rfl, request_written _ s rfl (checkEnable_fits id mode)⟩
  case txRaw id command n => exact ⟨_, rfl, request_written _ s rfl (checkRaw_fits id command n)⟩
  all_goals
    subst hi
    cases h

/-- A wire command puts one frame on the bus, and always answers a next state (R138). -/
theorem exec_wireCommand {i : Instr} (h : SpecText.isRequest i = false) (s : State) :
    ∃ id cmd p, exec i s = .next (sendRequest id cmd p s) := by
  cases i
  case queryId | setId | readPos | move | moveWait | start | stop | enable | txRaw | rxFrame => cases h
  all_goals exact ⟨_, _, _, rfl⟩

theorem decodeErrorCode_ne_ok (e : DecodeError) : decodeErrorCode e ≠ .ok := by cases e <;> nofun

theorem writeReq_written (w : ReqWord) (s : State) : ∃ t, writeReq w s = .next t ∧ RequestWritten s t := by
  cases hw : decodeReq w with
  | ok i =>
    rw [writeReq_ok hw]
    exact exec_request (isRequest_of_decodeReq hw) s
  | error e =>
    refine ⟨_, by simp only [writeReq, hw]; rfl, ?_⟩
    by_cases hs : s.estate = .idle
    · rw [whenIdle_idle _ hs]
      exact .refused _ hs (decodeErrorCode_ne_ok e)
    · rw [whenIdle_busy _ hs]
      exact .dropped hs

/-- What a host access can do (R250 to R256): only a write at 0x02 reaches REQ. -/
inductive HostTurn (s : State) : HostAccess → State → Prop where
  | ignored (a : HostAccess) : HostTurn s a s
  | read (a : HostAccess) (v : Half) : HostTurn s a { s with rdata := v }
  | payload (a : HostAccess) (i : Nat) (b : Byte) : i < Config.maxTxPayload → s.estate = .idle →
      HostTurn s a (txplWrite i b s)
  | request (n v : Nat) (t : State) : RequestWritten s t → HostTurn s (.write 0x02 n v) t

theorem hostWrite_turn (idx : BitVec 8) (n v : Nat) (s : State) :
    ∃ t, hostWrite idx v s = .next t ∧ HostTurn s (.write idx n v) t := by
  unfold hostWrite
  split
  · next hidx =>
    obtain rfl : idx = 0x02 := BitVec.eq_of_toNat_eq hidx
    obtain ⟨t, ht, hw⟩ := writeReq_written (BitVec.ofNat 48 v) s
    exact ⟨t, ht, .request n v t hw⟩
  · split
    · next hidx =>
      refine ⟨_, rfl, ?_⟩
      split
      · next hs => exact .payload _ _ _ (by omega) hs
      · exact .ignored _
    · exact ⟨_, rfl, .ignored _⟩

theorem hostAccess_turn (a : HostAccess) (s : State) : ∃ t, hostAccess a s = .next t ∧ HostTurn s a t := by
  unfold hostAccess
  split
  · exact ⟨_, rfl, .ignored a⟩
  · cases a with
    | read idx n => exact ⟨_, rfl, .read _ _⟩
    | write idx n v => exact hostWrite_turn idx n v s

theorem hostTurn_of_hostAccess {a : HostAccess} {s t : State} (h : hostAccess a s = .next t) : HostTurn s a t := by
  obtain ⟨u, hu, hturn⟩ := hostAccess_turn a s
  cases hu.symm.trans h
  exact hturn

theorem driveReset_cases (level : Bool) (s : State) :
    driveReset level s = s ∨ driveReset level s = resetRegisters level s := by
  unfold driveReset
  split
  · exact .inr rfl
  · exact .inl rfl

theorem stepUnder_resetInput {p : FlushPolicy} {s : State} {level : Bool} {rest : List Turn}
    (h : s.schedule = .resetInput level :: rest) :
    stepUnder p s = .next (driveReset level { s with schedule := rest }) := by
  simp [stepUnder, h]

/-- Whose turn a step was, with what the schedule said of it. -/
theorem stepUnder_turn {p : FlushPolicy} {s t : State} (h : stepUnder p s = .next t) :
    ∃ rest, sbpfStep p { s with schedule := rest } = .next t ∨
      (∃ a, s.schedule = .host a :: rest ∧ HostTurn { s with schedule := rest } a t) ∨
      ∃ level, t = driveReset level { s with schedule := rest } := by
  match hs : s.schedule with
  | [] => exact ⟨[], .inl (stepUnder_sbpf (.inr ⟨hs, rfl⟩) ▸ h)⟩
  | .sbpf :: rest => exact ⟨rest, .inl (stepUnder_sbpf (.inl hs) ▸ h)⟩
  | .host a :: rest => exact ⟨rest, .inr (.inl ⟨a, rfl, hostTurn_of_hostAccess (stepUnder_host hs ▸ h)⟩)⟩
  | .resetInput level :: rest =>
    rw [stepUnder_resetInput hs] at h
    exact ⟨rest, .inr (.inr ⟨level, by cases h; rfl⟩)⟩

end Sys2Proof.Machine
end

section
/-! Every turn keeps the invariant of Safety.lean (R40, R34, R42), and none stops. One lemma per operation names the clauses the
operation touches; the others are kept because it leaves the fields they speak of. -/

namespace Sys2Proof.Machine

/-! Accesses of the host, and reset. -/

theorem inv_schedule {s : State} (h : Inv s) (rest : List Turn) : Inv { s with schedule := rest } := { h with }

theorem inv_rdata {s : State} (h : Inv s) (v : Half) : Inv { s with rdata := v } := { h with }

theorem inv_setOverrun {s : State} (h : Inv s) : Inv (setOverrun s) := { h with }

theorem inv_txplWrite {s : State} {i : Nat} (h : Inv s) (hi : i < Config.maxTxPayload) (b : Byte) : Inv (txplWrite i b s) :=
  { h with txplForm := Memory.wf_write b h.txplForm hi }

theorem inv_requestError {s : State} {c : Code} (h : Inv s) (hs : s.estate = .idle) (hc : c ≠ .ok) :
    Inv (requestError c s) :=
  { h with
    busyStatus := fun hb => absurd hs hb
    failStatus := by simp [hc]
    failResult := fun _ => rfl }

/-- An operation starts from IDLE, where the line receives. RX_FRAME skips TXDIR and TXSEND (R191). -/
theorem inv_accept {s : State} {op : BitVec 4} {id : Byte} {a b : Half} {e : EState} (h : Inv s) (hs : s.estate = .idle)
    (he : e = if op = Op.rxFrame then .rxdir else .txdir) (hl : latchedLegal (accept op id a b e s)) :
    Inv (accept op id a b e s) := by
  have hdir : s.dir = .receive := h.receiving (by simp [hs]) (by simp [hs])
  have hsending : e = .txdir ∨ e = .txsend → op ≠ Op.rxFrame := by split at he <;> simp_all
  have hcases : e = .rxdir ∨ e = .txdir := by split at he <;> simp [he]
  rcases hcases with rfl | rfl
  all_goals exact
    { h with
      engineState := nofun
      parsing := nofun
      filtering := nofun
      receiving := fun _ _ => hdir
      transmitting := nofun
      busyStatus := fun _ => ⟨rfl, rfl, rfl, rfl⟩
      failStatus := by simp
      failResult := nofun
      latched := fun _ => hl
      sending := hsending
      awaiting := by simp
      sumHeld := by simp }

theorem inv_requestWritten {s t : State} (h : Inv s) (hw : RequestWritten s t) : Inv t := by
  cases hw with
  | dropped => exact inv_setOverrun h
  | refused c hs hc => exact inv_requestError h hs hc
  | accepted op id a b e hs he hl => exact inv_accept h hs he hl

theorem inv_hostTurn {s t : State} {a : HostAccess} (h : Inv s) (ht : HostTurn s a t) : Inv t := by
  cases ht with
  | ignored => exact h
  | read _ v => exact inv_rdata h v
  | payload _ i b hi => exact inv_txplWrite h hi b
  | request n v _ hw => exact inv_requestWritten h hw

/-- The registers take the values of `State.reset`, and no clause rests on what the unwritten bytes read as. -/
theorem inv_resetRegisters (level : Bool) (s : State) : Inv (resetRegisters level s) :=
  { resetMeetsTheInvariant with
    sumHeld := nofun
    frameValid := nofun
    lengthHeld := nofun }

theorem inv_driveReset {s : State} (h : Inv s) (level : Bool) : Inv (driveReset level s) := by
  obtain e | e := driveReset_cases level s <;> rw [e]
  · exact h
  · exact inv_resetRegisters level s

/-! SBPF's steps from TXDIR to the start of an attempt. -/

theorem inv_txdirStep {s : State} (h : Inv s) (hs : s.estate = .txdir) : Inv (txdirStep s) :=
  { h with
    engineState := nofun
    parsing := nofun
    filtering := nofun
    receiving := fun hne => absurd rfl hne
    transmitting := fun _ => rfl
    busyStatus := fun _ => h.busyStatus (by simp [hs])
    latched := fun _ => h.latched (by simp [hs])
    sending := fun _ => h.sending (.inl hs)
    awaiting := by simp [txdirStep]
    sumHeld := by simp [txdirStep] }

theorem inv_sendRequest {s : State} (h : Inv s) (hs : s.estate = .txsend) (id cmd : Byte) (p : List Byte) :
    Inv (sendRequest id cmd p s) :=
  { h with
    engineState := nofun
    parsing := nofun
    filtering := nofun
    receiving := fun _ hne => absurd rfl hne
    transmitting := nofun
    busyStatus := fun _ => h.busyStatus (by simp [hs])
    latched := fun _ => h.latched (by simp [hs])
    sending := by simp
    awaiting := by simp
    sumHeld := by simp }

theorem inv_turnLine_receive {s : State} (h : Inv s) (hs : s.estate ≠ .txsend) : Inv (turnLine .receive s) :=
  { h with
    receiving := fun _ _ => rfl
    transmitting := fun e => absurd e hs }

/-- `finish_ok` ends an operation while the line receives (R196). -/
theorem inv_finishOk {s : State} (h : Inv s) (hdir : s.dir = .receive) (v : Half) : Inv (finishOk v s) :=
  { h with
    engineState := nofun
    parsing := nofun
    filtering := nofun
    receiving := fun _ _ => hdir
    transmitting := nofun
    busyStatus := fun hb => absurd rfl hb
    failStatus := by simp
    failResult := nofun
    latched := fun hb => absurd rfl hb
    sending := by simp
    awaiting := by simp
    sumHeld := by simp }

/-- An operation that awaits a frame arms an attempt while the line receives (R139, R195). -/
theorem inv_arm {s : State} (h : Inv s) (hbusy : s.estate ≠ .idle) (hdir : s.dir = .receive)
    (hop : awaitsFrame s.opr = true) : Inv (setEState .arm s) :=
  { h with
    engineState := nofun
    parsing := nofun
    filtering := nofun
    receiving := fun _ _ => hdir
    transmitting := nofun
    busyStatus := fun _ => h.busyStatus hbusy
    latched := fun _ => h.latched hbusy
    sending := by simp
    awaiting := fun _ => hop
    sumHeld := by simp }

theorem inv_rxdirStep {s : State} (h : Inv s) (hs : s.estate = .rxdir) : Inv (rxdirStep s) := by
  have hr : Inv (turnLine .receive s) := inv_turnLine_receive h (by simp [hs])
  unfold rxdirStep
  split
  · next hop => exact inv_arm hr (by simp [hs]) rfl hop
  · exact inv_finishOk hr rfl 0

theorem inv_tFlush {s : State} (h : Inv s) : Inv (tFlush s) := { h with }

/-- An attempt starts with nothing stored (R151). -/
theorem inv_startAttempt {s : State} (h : Inv s) (hs : s.estate = .arm) : Inv (startAttempt s) :=
  { h with
    engineState := nofun
    parserState := nofun
    parsing := fun _ => ⟨nofun, nofun⟩
    filtering := nofun
    receiving := fun _ _ => h.receiving (by simp [hs]) (by simp [hs])
    transmitting := nofun
    busyStatus := fun _ => h.busyStatus (by simp [hs])
    latched := fun _ => h.latched (by simp [hs])
    sending := by simp
    awaiting := fun _ => h.awaiting (.inl hs)
    cntBound := by simp
    cntSeeking := fun _ => rfl
    cntLength := nofun
    cntBody := nofun
    cntEnded := by simp
    cause := by simp
    sumHeld := by simp
    frameValid := nofun
    lengthHeld := by simp }

theorem inv_armStep {s : State} (p : FlushPolicy) (h : Inv s) (hs : s.estate = .arm) : Inv (armStep p s) := by
  unfold armStep
  split
  · exact inv_startAttempt (inv_tFlush h) hs
  · exact inv_startAttempt h hs

end Sys2Proof.Machine
end

section
/-! The parser keeps the invariant (R29 to R31, R40, R152 to R161): each transition with what follows it in the same step. -/

namespace Sys2Proof.Machine

/-- The step answers a next state, and that state meets the invariant. -/
def GoesOn (o : Host.Outcome State Fault Refusal) : Prop := ∃ t, o = .next t ∧ Inv t

theorem goesOn_next {t : State} (h : Inv t) : GoesOn (.next t) := ⟨t, rfl, h⟩

theorem inv_tRead {s : State} (h : Inv s) : Inv (tRead s) := { h with }

/-- An attempt that fails ends its operation: of the parser's bookkeeping only the bounds are left to hold (R170, R197). -/
theorem inv_attemptFailed {s : State} {f : PFail} (hf : f ≠ .none) (hfb : Memory.wf Config.fbCap s.fb)
    (htxpl : Memory.wf Config.maxTxPayload s.txpl) (hdir : s.dir = .receive) (hcnt : s.cnt.toNat ≤ Config.fbCap)
    (hended : f = .checksum →
      Config.minLen ≤ s.flen.toNat ∧ s.flen.toNat ≤ Config.maxRxLen ∧ s.cnt.toNat = s.flen.toNat + 1) :
    Inv (afterTransition (parseFail f s)) := by
  rw [afterTransition_failed rfl]
  exact
    { fbForm := hfb
      txplForm := htxpl
      engineState := nofun
      parserState := nofun
      parsing := nofun
      filtering := nofun
      receiving := fun _ _ => hdir
      transmitting := nofun
      busyStatus := fun hb => absurd rfl hb
      failStatus := by cases f <;> simp_all [PFail.code]
      failResult := fun _ => rfl
      latched := fun hb => absurd rfl hb
      sending := by simp
      awaiting := by simp
      cntBound := hcnt
      cntSeeking := by simp
      cntLength := nofun
      cntBody := nofun
      cntEnded := by simpa using hended
      cause := by simpa using hf
      sumHeld := by simp
      frameValid := nofun
      lengthHeld := by simp }

/-- A byte stored at CNT keeps R40 (2): the accumulator is the sum of the stored bytes. -/
theorem sum_of_store {s t : State} {b : Byte} (hfb : t.fb = Memory.write s.fb s.cnt.toNat b) (hr : t.resets = s.resets)
    (hcnt : t.cnt.toNat = s.cnt.toNat + 1) (hacc : s.acc = sum8 (fbTake s.cnt.toNat s)) :
    s.acc + b = sum8 (fbTake t.cnt.toNat t) := by
  rw [hcnt, fbTake_succ_of_write hfb hr, sum8_append, ← hacc]
  simp

section
variable {s : State} (h : Inv s) (hs : s.estate = .parse) (b : Byte)
include h hs

theorem dir_of_parse : s.dir = .receive := h.receiving (by simp [hs]) (by simp [hs])

theorem inv_timeout : Inv (afterTransition (parseFail .timeout s)) :=
  inv_attemptFailed nofun h.fbForm h.txplForm (dir_of_parse h hs) h.cntBound nofun

/-- The sync detector moves between states in which nothing is stored. -/
theorem inv_setPState_seeking (hcnt : s.cnt = 0) (hp : s.pstate ≠ .failed) {q : PState}
    (hq : q = .seekSync1 ∨ q = .seekSync2 ∨ q = .readId) : Inv (setPState q s) := by
  have hpfail : s.pfail = .none := by simpa using fun e => hp (h.cause.2 e)
  rcases hq with rfl | rfl | rfl
  all_goals exact
    { h with
      parserState := nofun
      parsing := fun _ => ⟨nofun, nofun⟩
      filtering := by simp [hs]
      cntSeeking := fun _ => hcnt
      cntLength := nofun
      cntBody := nofun
      cntEnded := by simp
      cause := by simp [hpfail]
      frameValid := nofun
      lengthHeld := by simp }

theorem inv_onSeekSync1 (hp : s.pstate = .seekSync1) : Inv (afterTransition (onSeekSync1 b s)) := by
  unfold onSeekSync1
  split
  · exact inv_setPState_seeking h hs (h.cntSeeking (.inl hp)) (by simp [hp]) (.inr (.inl rfl))
  · rw [afterTransition_reading (by simp [hp]) (by simp [hp])]
    exact h

theorem inv_onSeekSync2 (hp : s.pstate = .seekSync2) : Inv (afterTransition (onSeekSync2 b s)) := by
  have hcnt : s.cnt = 0 := h.cntSeeking (.inr (.inl hp))
  unfold onSeekSync2
  split
  · exact inv_setPState_seeking h hs hcnt (by simp [hp]) (.inr (.inr rfl))
  · exact inv_setPState_seeking h hs hcnt (by simp [hp]) (.inl rfl)

/-- The first stored byte, at index 0 = CNT (R155). -/
theorem inv_onReadId (hp : s.pstate = .readId) : Inv (afterTransition (onReadId b s)) := by
  have hcnt : s.cnt = 0 := h.cntSeeking (.inr (.inr hp))
  have hpfail : s.pfail = .none := by simpa [hp] using h.cause
  change Inv (onReadId b s)
  exact
    { h with
      fbForm := Memory.wf_write b h.fbForm (by decide)
      parserState := nofun
      parsing := fun _ => ⟨nofun, nofun⟩
      filtering := by simp [hs]
      cntBound := (by decide : 1 ≤ 64)
      cntSeeking := by simp
      cntLength := fun _ => rfl
      cntBody := nofun
      cntEnded := by simp
      cause := by simp [hpfail]
      sumHeld := fun _ => sum_of_store (by simp [hcnt]) rfl (by simp [hcnt]) (h.sumHeld (.inl hs))
      frameValid := nofun
      lengthHeld := by simp }

/-- The second stored byte, at index 1 = CNT: the length byte, in range or not (R156). -/
theorem inv_onReadLength (hp : s.pstate = .readLength) : Inv (afterTransition (onReadLength b s)) := by
  have hcnt : s.cnt = 1 := h.cntLength hp
  have hpfail : s.pfail = .none := by simpa [hp] using h.cause
  have hdir : s.dir = .receive := dir_of_parse h hs
  have hfb : Memory.wf Config.fbCap (storeLength b s).fb := Memory.wf_write b h.fbForm (by decide)
  unfold onReadLength
  split
  · exact inv_attemptFailed nofun hfb h.txplForm hdir (by decide : 2 ≤ 64) nofun
  · next hlen =>
    have hlen : Config.minLen ≤ b.toNat ∧ b.toNat ≤ Config.maxRxLen := by omega
    change Inv (setPState .readBody (storeLength b s))
    exact
      { h with
        fbForm := hfb
        parserState := nofun
        parsing := fun _ => ⟨nofun, nofun⟩
        filtering := by simp [hs]
        cntBound := (by decide : 2 ≤ 64)
        cntSeeking := by simp
        cntLength := nofun
        cntBody := fun _ => ⟨hlen.1, hlen.2, Nat.le_refl 2, Nat.le_of_succ_le hlen.1⟩
        cntEnded := by simp
        cause := by simp [hpfail]
        sumHeld := fun _ => sum_of_store (by simp [hcnt]) rfl (by simp [hcnt]) (h.sumHeld (.inl hs))
        frameValid := nofun
        lengthHeld := fun _ => fbRead_of_write rfl }

end

/-! READ_BODY: CNT lies in 2..FLEN, so a byte is stored past the length byte and inside the buffer. -/

section
variable {s : State} (h : Inv s) (hs : s.estate = .parse) (hp : s.pstate = .readBody) (b : Byte)
include h hp

theorem readBody_bounds : 3 ≤ s.flen.toNat ∧ s.flen.toNat ≤ 63 ∧ 2 ≤ s.cnt.toNat ∧ s.cnt.toNat ≤ s.flen.toNat :=
  h.cntBody hp

theorem storeByte_cnt_toNat : (storeByte b s).cnt.toNat = s.cnt.toNat + 1 := by
  obtain ⟨-, hmax, -, hcnt⟩ := readBody_bounds h hp
  simp
  omega

theorem storeByte_fbForm : Memory.wf Config.fbCap (storeByte b s).fb := by
  obtain ⟨-, hmax, -, hcnt⟩ := readBody_bounds h hp
  exact Memory.wf_write b h.fbForm (show _ < 64 by omega)

theorem storeByte_lengthHeld : fbRead (storeByte b s) 1 = (storeByte b s).flen := by
  obtain ⟨-, -, hmin, -⟩ := readBody_bounds h hp
  have hstore : fbRead (storeByte b s) 1 = fbRead s 1 := fbRead_of_write_other rfl rfl (by omega)
  exact hstore.trans (h.lengthHeld (.inl hp))

include hs

theorem storeByte_sum : s.acc + b = sum8 (fbTake (storeByte b s).cnt.toNat (storeByte b s)) :=
  sum_of_store rfl rfl (storeByte_cnt_toNat h hp b) (h.sumHeld (.inl hs))

/-- A byte before the last one (R157). -/
theorem inv_storeByte (hlt : s.cnt.toNat < s.flen.toNat) : Inv (afterTransition (storeByte b s)) := by
  obtain ⟨hmin, hmax, hcnt2, hcnt⟩ := readBody_bounds h hp
  have hc := storeByte_cnt_toNat h hp b
  rw [afterTransition_reading (by simp [hp]) (by simp [hp])]
  exact
    { h with
      fbForm := storeByte_fbForm h hp b
      cntBound := show _ ≤ 64 by omega
      cntSeeking := by simp [hp]
      cntLength := by simp [hp]
      cntBody := fun _ => ⟨hmin, hmax, by rw [hc]; omega, by rw [hc]; exact hlt⟩
      cntEnded := by simp [hp]
      sumHeld := fun _ => storeByte_sum h hs hp b
      frameValid := by simp [hp]
      lengthHeld := fun _ => storeByte_lengthHeld h hp b }

/-- The last byte, with a good sum: the frame goes to FILTER (R158, R152). -/
theorem inv_complete (heq : s.cnt.toNat = s.flen.toNat) (hsum : s.acc + b = 0xFF) :
    Inv (afterTransition (setPState .complete (storeByte b s))) := by
  obtain ⟨hmin, hmax, -, -⟩ := readBody_bounds h hp
  have hc := storeByte_cnt_toNat h hp b
  have hpfail : s.pfail = .none := by simpa [hp] using h.cause
  have hdir : s.dir = .receive := dir_of_parse h hs
  change Inv (setEState .filter (setPState .complete (storeByte b s)))
  exact
    { h with
      fbForm := storeByte_fbForm h hp b
      engineState := nofun
      parserState := nofun
      parsing := nofun
      filtering := fun _ => rfl
      receiving := fun _ _ => hdir
      transmitting := nofun
      busyStatus := fun _ => h.busyStatus (by simp [hs])
      latched := fun _ => h.latched (by simp [hs])
      sending := by simp
      awaiting := fun _ => h.awaiting (.inr (.inl hs))
      cntBound := show (storeByte b s).cnt.toNat ≤ 64 by omega
      cntSeeking := by simp
      cntLength := nofun
      cntBody := nofun
      cntEnded := fun _ => ⟨hmin, hmax, hc.trans (congrArg (· + 1) heq)⟩
      cause := by simp [hpfail]
      sumHeld := fun _ => storeByte_sum h hs hp b
      frameValid := fun _ => (storeByte_sum h hs hp b).symm.trans hsum
      lengthHeld := fun _ => storeByte_lengthHeld h hp b }

/-- The last byte, with a bad sum (R158). -/
theorem inv_checksumFailed (heq : s.cnt.toNat = s.flen.toNat) :
    Inv (afterTransition (parseFail .checksum (storeByte b s))) := by
  obtain ⟨hmin, hmax, -, -⟩ := readBody_bounds h hp
  have hc : (storeByte b s).cnt.toNat = s.flen.toNat + 1 := (storeByte_cnt_toNat h hp b).trans (congrArg (· + 1) heq)
  have hdir : s.dir = .receive := dir_of_parse h hs
  exact inv_attemptFailed nofun (storeByte_fbForm h hp b) h.txplForm hdir (show (storeByte b s).cnt.toNat ≤ 64 by omega)
    fun _ => ⟨hmin, hmax, hc⟩

theorem onReadBody_goesOn : GoesOn (thenState (onReadBody b s) afterTransition) := by
  obtain ⟨-, hmax, -, hcnt⟩ := readBody_bounds h hp
  obtain ⟨-, hout : 64 ≤ _ ∨ _⟩ | ⟨e, -, hlt⟩ | ⟨e, -, heq, hsum⟩ | ⟨e, -, heq, -⟩ := onReadBody_cases b s
  · omega
  · rw [e]; exact goesOn_next (inv_storeByte h hs hp b hlt)
  · rw [e]; exact goesOn_next (inv_complete h hs hp b heq hsum)
  · rw [e]; exact goesOn_next (inv_checksumFailed h hs hp b heq)

end

theorem onByte_goesOn {s : State} (h : Inv s) (hs : s.estate = .parse) (b : Byte) :
    GoesOn (thenState (onByte b s) afterTransition) := by
  cases hp : s.pstate <;> simp only [onByte, hp]
  case seekSync1 => exact goesOn_next (inv_onSeekSync1 h hs b hp)
  case seekSync2 => exact goesOn_next (inv_onSeekSync2 h hs b hp)
  case readId => exact goesOn_next (inv_onReadId h hs b hp)
  case readLength => exact goesOn_next (inv_onReadLength h hs b hp)
  case readBody => exact onReadBody_goesOn h hs hp b
  case complete => exact absurd hp (h.parsing hs).1
  case failed => exact absurd hp (h.parsing hs).2
  case reserved => exact absurd hp h.parserState

theorem onTimeout_goesOn {s : State} (h : Inv s) (hs : s.estate = .parse) :
    GoesOn (thenState (onTimeout s) afterTransition) := by
  cases hp : s.pstate <;> simp only [onTimeout, hp]
  case complete => exact absurd hp (h.parsing hs).1
  case failed => exact absurd hp (h.parsing hs).2
  case reserved => exact absurd hp h.parserState
  all_goals exact goesOn_next (inv_timeout h hs)

theorem parseStep_goesOn {s : State} (h : Inv s) (hs : s.estate = .parse) : GoesOn (parseStep s) := by
  unfold parseStep
  split
  · exact onByte_goesOn (inv_tRead h) hs _
  · exact onTimeout_goesOn (inv_tRead h) hs

end Sys2Proof.Machine
end

section
/-! TXSEND and FILTER have a case for every operation in flight, so that no turn from the invariant stops. -/

namespace Sys2Proof.Machine

/-- A legal request that sends is TX_RAW with a payload that fits, or fixes a wire command (R96, R105, R136). -/
theorem latchedLegal_sends {s : State} (h : latchedLegal s) (hop : s.opr ≠ Op.rxFrame) :
    (s.opr = Op.txRaw ∧ (argCount s.ra).toNat ≤ Config.maxTxPayload) ∨
    ∃ c i, commandOf s.opr = some c ∧ decodeCmd c = .ok i := by
  obtain ⟨i, hi, hwf⟩ := h
  simp only [decodeReq, reqOp_packReq, reqA_packReq] at hi
  split at hi
  case h_9 ho =>
    obtain ⟨-, rfl⟩ := unlessReserved_ok hi
    simp only [Instr.wellFormed, Bool.and_eq_true, decide_eq_true_eq] at hwf
    exact .inl ⟨BitVec.eq_of_toNat_eq ho, hwf.2⟩
  case h_10 ho => exact absurd (BitVec.eq_of_toNat_eq ho) hop
  case h_11 => cases hi
  all_goals
    next ho => exact .inr ⟨_, _, by simp only [commandOf, ho]; rfl, rfl⟩

theorem sendRaw_goesOn {s : State} (h : Inv s) (hs : s.estate = .txsend)
    (hn : (argCount s.ra).toNat ≤ Config.maxTxPayload) : GoesOn (sendRaw s) := by
  unfold sendRaw
  rw [if_neg (by omega)]
  exact goesOn_next (inv_sendRequest h hs ..)

theorem txsendStep_goesOn {s : State} (h : Inv s) (hs : s.estate = .txsend) : GoesOn (txsendStep s) := by
  obtain ⟨hop, hn⟩ | ⟨c, i, hc, hi⟩ := latchedLegal_sends (h.latched (by simp [hs])) (h.sending (.inr hs))
  · rw [txsendStep, if_pos hop]
    exact sendRaw_goesOn h hs hn
  · obtain ⟨id, cmd, p, e⟩ := exec_wireCommand (isRequest_of_decodeCmd hi) s
    rw [txsendStep_command hc hi, e]
    exact goesOn_next (inv_sendRequest h hs id cmd p)

theorem inv_matchOrRearm {s : State} (h : Inv s) (hs : s.estate = .filter) (m : Bool) (v : Half) :
    Inv (matchOrRearm m v s) := by
  have hdir : s.dir = .receive := h.receiving (by simp [hs]) (by simp [hs])
  unfold matchOrRearm
  split
  · exact inv_finishOk h hdir v
  · exact inv_arm h (by simp [hs]) hdir (h.awaiting (.inr (.inr hs)))

theorem filterStep_goesOn {s : State} (h : Inv s) (hs : s.estate = .filter) : GoesOn (filterStep s) := by
  have hop : s.opr = Op.queryId ∨ s.opr = Op.readPos ∨ s.opr = Op.rxFrame := by
    simpa [awaitsFrame, or_assoc] using h.awaiting (.inr (.inr hs))
  unfold filterStep
  split
  · exact goesOn_next (inv_matchOrRearm h hs ..)
  · split
    · exact goesOn_next (inv_matchOrRearm h hs ..)
    · split
      · exact goesOn_next (inv_matchOrRearm h hs ..)
      · simp_all

theorem engineStep_goesOn {s : State} (p : FlushPolicy) (h : Inv s) : GoesOn (engineStep p s) := by
  cases hs : s.estate <;> simp only [engineStep, hs]
  case idle => exact goesOn_next h
  case txdir => exact goesOn_next (inv_txdirStep h hs)
  case txsend => exact txsendStep_goesOn h hs
  case rxdir => exact goesOn_next (inv_rxdirStep h hs)
  case arm => exact goesOn_next (inv_armStep p h hs)
  case parse => exact parseStep_goesOn h hs
  case filter => exact filterStep_goesOn h hs
  case reserved => exact absurd hs h.engineState

theorem sbpfStep_goesOn {s : State} (p : FlushPolicy) (h : Inv s) : GoesOn (sbpfStep p s) := by
  cases hrst : s.rst
  · rw [sbpfStep_engineStep hrst h.parserState]
    exact engineStep_goesOn p h
  · rw [sbpfStep, if_pos hrst]
    exact goesOn_next h

theorem hostAccess_goesOn {s : State} (a : HostAccess) (h : Inv s) : GoesOn (hostAccess a s) := by
  obtain ⟨t, ht, hturn⟩ := hostAccess_turn a s
  exact ⟨t, ht, inv_hostTurn h hturn⟩

/-- Settles O38, by the turn: SBPF's engine step, the host's access, or the reset input. -/
theorem noStepFromTheInvariantStops : Obligations.NoStepFromTheInvariantStops := by
  intro p s h
  change GoesOn (stepUnder p s)
  match hs : s.schedule with
  | [] =>
    rw [stepUnder_sbpf (.inr ⟨hs, rfl⟩)]
    exact sbpfStep_goesOn p (inv_schedule h [])
  | .sbpf :: rest =>
    rw [stepUnder_sbpf (.inl hs)]
    exact sbpfStep_goesOn p (inv_schedule h rest)
  | .host a :: rest =>
    rw [stepUnder_host hs]
    exact hostAccess_goesOn a (inv_schedule h rest)
  | .resetInput level :: rest =>
    rw [stepUnder_resetInput hs]
    exact goesOn_next (inv_driveReset (inv_schedule h rest) level)

/-- Settles O37: the one next state is the one NoStepFromTheInvariantStops gives. -/
theorem stepKeepsTheInvariant : Obligations.StepKeepsTheInvariant := by
  intro s t h hstep
  obtain ⟨u, hu, hinv⟩ := noStepFromTheInvariantStops Config.flushPolicy s h
  obtain rfl : u = t := by simpa using hu.symm.trans hstep
  exact hinv

end Sys2Proof.Machine
end

section
/-! What a turn leaves unchanged: the latched request, TXPL and OVR in SBPF's steps (R25, R63, R76, R252), FB outside the
parser's store (R32, R62), and the calls a step makes by its engine state (R23, R40). -/

namespace Sys2Proof.Machine

/-- What no step of SBPF changes: the latched request, TXPL, OVR and the count of resets. -/
structure HostSide where
  opr : BitVec 4
  rid : Byte
  ra : Half
  rb : Half
  txpl : Memory
  ovr : Bool
  resets : Nat

def hostSide (s : State) : HostSide :=
  { opr := s.opr, rid := s.rid, ra := s.ra, rb := s.rb, txpl := s.txpl, ovr := s.ovr, resets := s.resets }

@[simp] theorem hostSide_setEState (e : EState) (s : State) : hostSide (setEState e s) = hostSide s := rfl
@[simp] theorem hostSide_setPState (p : PState) (s : State) : hostSide (setPState p s) = hostSide s := rfl
@[simp] theorem hostSide_turnLine (d : Dir) (s : State) : hostSide (turnLine d s) = hostSide s := rfl
@[simp] theorem hostSide_sendRequest (id cmd : Byte) (p : List Byte) (s : State) :
    hostSide (sendRequest id cmd p s) = hostSide s := rfl
@[simp] theorem hostSide_finishOk (v : Half) (s : State) : hostSide (finishOk v s) = hostSide s := rfl
@[simp] theorem hostSide_finishFail (c : Code) (s : State) : hostSide (finishFail c s) = hostSide s := rfl
@[simp] theorem hostSide_parseFail (c : PFail) (s : State) : hostSide (parseFail c s) = hostSide s := rfl
@[simp] theorem hostSide_tRead (s : State) : hostSide (tRead s) = hostSide s := rfl
@[simp] theorem hostSide_tFlush (s : State) : hostSide (tFlush s) = hostSide s := rfl
@[simp] theorem hostSide_startAttempt (s : State) : hostSide (startAttempt s) = hostSide s := rfl
@[simp] theorem hostSide_onReadId (b : Byte) (s : State) : hostSide (onReadId b s) = hostSide s := rfl
@[simp] theorem hostSide_storeLength (b : Byte) (s : State) : hostSide (storeLength b s) = hostSide s := rfl
@[simp] theorem hostSide_storeByte (b : Byte) (s : State) : hostSide (storeByte b s) = hostSide s := rfl

@[simp] theorem hostSide_txdirStep (s : State) : hostSide (txdirStep s) = hostSide s := rfl

@[simp] theorem hostSide_rxdirStep (s : State) : hostSide (rxdirStep s) = hostSide s := by
  unfold rxdirStep
  split <;> simp

@[simp] theorem hostSide_armStep (p : FlushPolicy) (s : State) : hostSide (armStep p s) = hostSide s := by
  unfold armStep
  split <;> simp

@[simp] theorem hostSide_afterTransition (s : State) : hostSide (afterTransition s) = hostSide s := by
  unfold afterTransition
  split <;> simp

@[simp] theorem hostSide_onSeekSync1 (b : Byte) (s : State) : hostSide (onSeekSync1 b s) = hostSide s := by
  unfold onSeekSync1
  split <;> simp

@[simp] theorem hostSide_onSeekSync2 (b : Byte) (s : State) : hostSide (onSeekSync2 b s) = hostSide s := by
  unfold onSeekSync2
  split <;> simp

@[simp] theorem hostSide_onReadLength (b : Byte) (s : State) : hostSide (onReadLength b s) = hostSide s := by
  unfold onReadLength
  split <;> simp

theorem hostSide_onReadBody {b : Byte} {s t : State} (h : onReadBody b s = .next t) : hostSide t = hostSide s := by
  obtain ⟨e, -⟩ | ⟨e, -⟩ | ⟨e, -⟩ | ⟨e, -⟩ := onReadBody_cases b s <;> rw [e] at h <;> cases h <;> simp

theorem hostSide_onByte {b : Byte} {s t : State} (h : onByte b s = .next t) : hostSide t = hostSide s := by
  cases hp : s.pstate <;> simp only [onByte, hp] at h
  case readBody => exact hostSide_onReadBody h
  case seekSync1 | seekSync2 | readId | readLength => cases h; simp
  case complete | failed | reserved => cases h

theorem hostSide_parseStep {s t : State} (h : parseStep s = .next t) : hostSide t = hostSide s := by
  obtain ⟨b, u, -, hu, rfl⟩ | ⟨-, rfl⟩ := parseStep_cases h
  · simp [hostSide_onByte hu]
  · simp

/-- A TXSEND step puts one frame on the bus, whichever operation sends it (R136, R138). -/
theorem txsendStep_sends {s t : State} (h : txsendStep s = .next t) : ∃ id cmd p, t = sendRequest id cmd p s := by
  obtain ⟨-, -, rfl⟩ | ⟨c, i, -, -, hi, he⟩ := txsendStep_next h
  · exact ⟨_, _, _, rfl⟩
  · obtain ⟨id, cmd, p, e⟩ := exec_wireCommand (isRequest_of_decodeCmd hi) s
    cases e.symm.trans he
    exact ⟨id, cmd, p, rfl⟩

theorem hostSide_sbpfStep {p : FlushPolicy} {s t : State} (h : sbpfStep p s = .next t) : hostSide t = hostSide s := by
  obtain rfl | ⟨-, rfl⟩ | ⟨-, h⟩ | ⟨-, rfl⟩ | ⟨-, rfl⟩ | ⟨-, h⟩ | ⟨-, h⟩ := sbpfStep_cases h
  · rfl
  · exact hostSide_txdirStep s
  · obtain ⟨_, _, _, rfl⟩ := txsendStep_sends h
    rfl
  · exact hostSide_rxdirStep s
  · exact hostSide_armStep p s
  · exact hostSide_parseStep h
  · obtain ⟨v, rfl⟩ | rfl := filterStep_next h <;> rfl

/-- A turn of the reset input that is no reset changes nothing (R310). -/
theorem driveReset_of_resets {level : Bool} {s : State} (h : (driveReset level s).resets = s.resets) :
    driveReset level s = s := by
  obtain e | e := driveReset_cases level s
  · exact e
  · simp [e] at h

/-- Settles O40: SBPF never writes the request or TXPL, and while it is busy the host's writes of them are dropped. -/
theorem requestAndPayloadFrozenWhileBusy : Obligations.RequestAndPayloadFrozenWhileBusy := by
  intro p s t h hbusy hresets
  obtain ⟨rest, hsbpf | ⟨a, -, hhost⟩ | ⟨level, rfl⟩⟩ := stepUnder_turn h
  · have hside := hostSide_sbpfStep hsbpf
    exact ⟨congrArg HostSide.opr hside, congrArg HostSide.rid hside, congrArg HostSide.ra hside,
      congrArg HostSide.rb hside, congrArg HostSide.txpl hside⟩
  · cases hhost with
    | ignored | read => exact ⟨rfl, rfl, rfl, rfl, rfl⟩
    | payload _ _ _ _ hidle => exact absurd hidle hbusy
    | request n v _ hw =>
      cases hw with
      | dropped => exact ⟨rfl, rfl, rfl, rfl, rfl⟩
      | refused _ hidle => exact absurd hidle hbusy
      | accepted _ _ _ _ _ hidle => exact absurd hidle hbusy
  · rw [driveReset_of_resets hresets]
    exact ⟨rfl, rfl, rfl, rfl, rfl⟩

/-! OVR (R34, R252). -/

/-- A host access other than a write of REQ leaves OVR; a write of REQ sets it when it is dropped and else clears it. -/
theorem ovr_of_hostTurn {s t : State} {a : HostAccess} (h : HostTurn s a t) :
    t.ovr = s.ovr ∨ ∃ n v, a = .write 0x02 n v ∧
      ((s.estate ≠ .idle ∧ t = setOverrun s) ∨ (s.estate = .idle ∧ t.ovr = false)) := by
  cases h with
  | ignored | read | payload => exact .inl rfl
  | request n v _ hw =>
    refine .inr ⟨n, v, rfl, ?_⟩
    cases hw with
    | dropped hbusy => exact .inl ⟨hbusy, rfl⟩
    | refused _ hidle => exact .inr ⟨hidle, rfl⟩
    | accepted _ _ _ _ _ hidle => exact .inr ⟨hidle, rfl⟩

theorem ovr_of_driveReset (level : Bool) (s : State) :
    (driveReset level s).ovr = s.ovr ∨
    ((driveReset level s).ovr = false ∧ (driveReset level s).resets = s.resets + 1) := by
  obtain e | e := driveReset_cases level s <;> rw [e]
  · exact .inl rfl
  · exact .inr ⟨rfl, rfl⟩

/-- What a turn does to OVR: nothing, or it is a write of REQ, dropped or taken, or a reset. -/
theorem ovr_of_stepUnder {p : FlushPolicy} {s t : State} (h : stepUnder p s = .next t) :
    t.ovr = s.ovr ∨
    ((∃ n v, s.schedule.head? = some (.host (.write 0x02 n v))) ∧
      ((s.estate ≠ .idle ∧ t = { s with ovr := true, schedule := t.schedule }) ∨ (s.estate = .idle ∧ t.ovr = false))) ∨
    (t.ovr = false ∧ t.resets = s.resets + 1) := by
  obtain ⟨rest, hsbpf | ⟨a, hsched, hhost⟩ | ⟨level, rfl⟩⟩ := stepUnder_turn h
  · exact .inl (congrArg HostSide.ovr (hostSide_sbpfStep hsbpf))
  · obtain hovr | ⟨n, v, rfl, hreq⟩ := ovr_of_hostTurn hhost
    · exact .inl hovr
    · refine .inr (.inl ⟨⟨n, v, by simp [hsched]⟩, hreq.imp_left ?_⟩)
      rintro ⟨hbusy, rfl⟩
      exact ⟨hbusy, rfl⟩
  · obtain hovr | hreset := ovr_of_driveReset level { s with schedule := rest }
    · exact .inl hovr
    · exact .inr (.inr hreset)

/-- Settles O47, by what the turn did to OVR. -/
theorem overrunOnlyFromADroppedRequest : Obligations.OverrunOnlyFromADroppedRequest := by
  intro p s t h
  obtain hovr | ⟨hreq, ⟨hbusy, ht⟩ | ⟨hidle, hclear⟩⟩ | ⟨hclear, hresets⟩ := ovr_of_stepUnder h
  · exact ⟨fun hs ht => by simp [hs, ht] at hovr, fun hs ht => by simp [hs, ht] at hovr⟩
  · have hset : t.ovr = true := by rw [ht]
    exact ⟨fun _ _ => ⟨hbusy, hreq, ht⟩, fun _ hclear => by simp [hset] at hclear⟩
  · exact ⟨fun _ hset => by simp [hclear] at hset, fun _ _ => .inl ⟨hidle, hreq⟩⟩
  · exact ⟨fun _ hset => by simp [hclear] at hset, fun _ _ => .inr hresets⟩

/-! FB (R32, R62). -/

/-- A byte's transition stores it at CNT or leaves FB: by the invariant READ_ID and READ_LENGTH store at CNT too
(R155 to R158). -/
theorem fb_of_onByte {b : Byte} {s t : State} (hinv : Inv s) (h : onByte b s = .next t) :
    t.fb = s.fb ∨ t.fb = Memory.write s.fb s.cnt.toNat b := by
  cases hp : s.pstate <;> simp only [onByte, hp] at h
  case seekSync1 =>
    cases h
    unfold onSeekSync1
    exact .inl (by split <;> rfl)
  case seekSync2 =>
    cases h
    unfold onSeekSync2
    exact .inl (by split <;> rfl)
  case readId =>
    cases h
    exact .inr (by simp [hinv.cntSeeking (.inr (.inr hp))])
  case readLength =>
    cases h
    unfold onReadLength
    exact .inr (by split <;> simp [hinv.cntLength hp])
  case readBody =>
    obtain ⟨e, -⟩ | ⟨e, -⟩ | ⟨e, -⟩ | ⟨e, -⟩ := onReadBody_cases b s <;> rw [e] at h <;> cases h <;> exact .inr rfl
  case complete | failed | reserved => cases h

theorem fb_of_parseStep {s t : State} (hinv : Inv s) (h : parseStep s = .next t) :
    t.fb = s.fb ∨ ∃ b, t.fb = Memory.write s.fb s.cnt.toNat b := by
  obtain ⟨b, u, -, hu, rfl⟩ | ⟨-, rfl⟩ := parseStep_cases h
  · rw [afterTransition_fb]
    exact (fb_of_onByte (inv_tRead hinv) hu).imp_right fun e => ⟨b, e⟩
  · exact .inl (afterTransition_fb _)

theorem fb_of_sbpfStep {p : FlushPolicy} {s t : State} (hinv : Inv s) (h : sbpfStep p s = .next t) :
    t.fb = s.fb ∨ (s.estate = .parse ∧ ∃ b, t.fb = Memory.write s.fb s.cnt.toNat b) := by
  obtain rfl | ⟨-, rfl⟩ | ⟨-, h⟩ | ⟨-, rfl⟩ | ⟨-, rfl⟩ | ⟨hs, h⟩ | ⟨-, h⟩ := sbpfStep_cases h
  · exact .inl rfl
  · exact .inl rfl
  · obtain ⟨_, _, _, rfl⟩ := txsendStep_sends h
    exact .inl rfl
  · unfold rxdirStep
    exact .inl (by split <;> rfl)
  · unfold armStep
    exact .inl (by split <;> rfl)
  · exact (fb_of_parseStep hinv h).imp_right fun hstore => ⟨hs, hstore⟩
  · obtain ⟨v, rfl⟩ | rfl := filterStep_next h <;> exact .inl rfl

theorem fb_of_hostTurn {s t : State} {a : HostAccess} (h : HostTurn s a t) : t.fb = s.fb := by
  cases h with
  | ignored | read | payload => rfl
  | request _ _ _ hw => cases hw <;> rfl

/-- A turn that is no reset leaves FB, or is a PARSE step that stores one byte at CNT. -/
theorem fb_of_stepUnder {p : FlushPolicy} {s t : State} (hinv : Inv s) (h : stepUnder p s = .next t)
    (hresets : t.resets = s.resets) :
    t.fb = s.fb ∨ (s.estate = .parse ∧ ∃ b, t.fb = Memory.write s.fb s.cnt.toNat b) := by
  obtain ⟨rest, hsbpf | ⟨a, -, hhost⟩ | ⟨level, rfl⟩⟩ := stepUnder_turn h
  · have hfb := fb_of_sbpfStep (inv_schedule hinv rest) hsbpf
    exact hfb
  · have hfb := fb_of_hostTurn hhost
    exact .inl hfb
  · rw [driveReset_of_resets hresets]
    exact .inl rfl

/-- Settles O41: FB is kept, or one byte of it is written, at CNT. -/
theorem frameBufferWrittenOnlyAtCnt : Obligations.FrameBufferWrittenOnlyAtCnt := by
  intro p s t hinv h hresets
  obtain hfb | ⟨hs, b, hfb⟩ := fb_of_stepUnder hinv h hresets
  · exact ⟨fun _ => hfb, fun i _ => fbRead_congr hfb hresets i⟩
  · exact ⟨fun hne => absurd hs hne, fun i hi => fbRead_of_write_other hfb hresets hi⟩

/-! The direction of the line (R23, R40, R296). -/

/-- The engine state a transport call belongs to: sends to TXSEND, reads to PARSE (R138, R152). -/
def CallFits (e : EState) : BusCall → Prop
  | .send _ => e = .txsend
  | .read _ => e = .parse
  | .setDir _ => True
  | .flush => True

theorem sbpfStep_callFits {p : FlushPolicy} {s t : State} (h : sbpfStep p s = .next t) :
    t.busLog = s.busLog ∨ ∃ c, CallFits s.estate c ∧ t.busLog = c :: s.busLog := by
  obtain rfl | ⟨-, rfl⟩ | ⟨hs, h⟩ | ⟨-, rfl⟩ | ⟨-, rfl⟩ | ⟨hs, h⟩ | ⟨-, h⟩ := sbpfStep_cases h
  · exact .inl rfl
  · exact .inr ⟨.setDir .transmit, trivial, txdirStep_busLog s⟩
  · obtain ⟨id, cmd, f, rfl⟩ := txsendStep_sends h
    exact .inr ⟨.send (encodeFrame id cmd f), hs, sendRequest_busLog id cmd f s⟩
  · exact .inr ⟨.setDir .receive, trivial, rxdirStep_busLog s⟩
  · unfold armStep
    split
    · exact .inr ⟨.flush, trivial, rfl⟩
    · exact .inl rfl
  · exact .inr ⟨.read Config.tByteMs, hs, parseStep_busLog h⟩
  · exact .inl (filterStep_busLog h)

theorem busLog_of_hostTurn {s t : State} {a : HostAccess} (h : HostTurn s a t) : t.busLog = s.busLog := by
  cases h with
  | ignored | read | payload => rfl
  | request _ _ _ hw => cases hw <;> rfl

theorem stepUnder_callFits {p : FlushPolicy} {s t : State} (h : stepUnder p s = .next t) :
    t.busLog = s.busLog ∨ ∃ c, CallFits s.estate c ∧ t.busLog = c :: s.busLog := by
  obtain ⟨rest, hsbpf | ⟨a, -, hhost⟩ | ⟨level, rfl⟩⟩ := stepUnder_turn h
  · have hcall := sbpfStep_callFits hsbpf
    exact hcall
  · have hlog := busLog_of_hostTurn hhost
    exact .inl hlog
  · exact .inl (driveReset_busLog level _)

/-- A call a step made belongs to the engine state the step started in. -/
theorem callFits_of_busLog {p : FlushPolicy} {s t : State} {c : BusCall} (h : stepUnder p s = .next t)
    (hlog : t.busLog = c :: s.busLog) : CallFits s.estate c := by
  obtain hkept | ⟨d, hfit, hd⟩ := stepUnder_callFits h
  · exact absurd (hlog.symm.trans hkept) (List.cons_ne_self c s.busLog)
  · obtain ⟨rfl, -⟩ := List.cons.inj (hlog.symm.trans hd)
    exact hfit

/-- Settles O49: a send belongs to TXSEND and a read to PARSE, where the invariant holds the line's direction. -/
theorem lineDirectionDiscipline : Obligations.LineDirectionDiscipline := by
  intro p s t hinv h
  constructor
  · intro f hlog
    exact hinv.transmitting (callFits_of_busLog h hlog)
  · intro w hlog
    exact dir_of_parse hinv (callFits_of_busLog h hlog)

end Sys2Proof.Machine
end

section
/-! The buffers and the unread stream as the host and a flush leave them (R63, R70), and the outcome an operation publishes:
FB is final before it (R74, R156, R158), and in IDLE only a write of REQ or a reset ends it (R74, R321). -/

namespace Sys2Proof.Machine

/-! TXPL and the unread stream (R63, R70, R254). -/

theorem txplRead_txplWrite_same (i : Nat) (b : Byte) (s : State) : txplRead (txplWrite i b s) i = b := by
  simp [txplRead, Memory.read_write_same]

theorem txplRead_txplWrite_other {i j : Nat} (b : Byte) (s : State) (h : j ≠ i) :
    txplRead (txplWrite i b s) j = txplRead s j := by
  simp [txplRead, Memory.read_write_other _ _ _ _ h]

/-- Settles O33: the write is read back, and every other byte of the buffer is read as before. -/
theorem txplHoldsWhatIsWritten : Obligations.TxplHoldsWhatIsWritten :=
  fun s i _ b => ⟨txplRead_txplWrite_same i b s, txplRead_txplWrite_other b s⟩

theorem flushAmount_of_draws {s : State} {n : Nat} {draws : List Nat} (h : s.flushDraws = n :: draws) :
    flushAmount s = n := by
  simp [flushAmount, h]

/-- Settles O23: what is dropped is the drawn number of results from the front, and a listed draw is any number. -/
theorem flushDiscardsADrawnPart : Obligations.FlushDiscardsADrawnPart := by
  refine ⟨fun s => ⟨s.rxStream.take (flushAmount s), (List.take_append_drop _ _).symm, rfl⟩, ?_⟩
  intro s dropped rest draws h
  rw [tFlush_rxStream, flushAmount_of_draws rfl]
  simp [h]

/-! What completion publishes, and the PARSE step (R74, R152, R170). -/

/-- What the end of an operation publishes, and the ESTATE it leaves (R196, R197). -/
structure Published where
  done : Bool
  fail : Bool
  code : Code
  result : Half
  estate : EState

def published (s : State) : Published :=
  { done := s.done, fail := s.fail, code := s.code, result := s.result, estate := s.estate }

@[simp] theorem published_setPState (p : PState) (s : State) : published (setPState p s) = published s := rfl
@[simp] theorem published_parseFail (f : PFail) (s : State) : published (parseFail f s) = published s := rfl
@[simp] theorem published_tRead (s : State) : published (tRead s) = published s := rfl
@[simp] theorem published_onReadId (b : Byte) (s : State) : published (onReadId b s) = published s := rfl
@[simp] theorem published_storeLength (b : Byte) (s : State) : published (storeLength b s) = published s := rfl
@[simp] theorem published_storeByte (b : Byte) (s : State) : published (storeByte b s) = published s := rfl

/-- What a byte's transition leaves for completion: nothing is published yet, and an attempt that has failed failed with
LENGTH or CHECKSUM, the two causes a byte can have (R156, R158). -/
def ByteTaken (s u : State) : Prop :=
  published u = published s ∧ (u.pstate = .failed → u.pfail = .length ∨ u.pfail = .checksum)

theorem byteTaken_of_onByte {b : Byte} {s u : State} (h : onByte b s = .next u) : ByteTaken s u := by
  cases hp : s.pstate <;> simp only [onByte, hp] at h
  case seekSync1 =>
    cases h
    unfold onSeekSync1
    split <;> simp [ByteTaken, hp]
  case seekSync2 =>
    cases h
    unfold onSeekSync2
    split <;> simp [ByteTaken]
  case readId =>
    cases h
    simp [ByteTaken]
  case readLength =>
    cases h
    unfold onReadLength
    split <;> simp [ByteTaken]
  case readBody =>
    obtain ⟨e, -⟩ | ⟨e, -⟩ | ⟨e, -⟩ | ⟨e, -⟩ := onReadBody_cases b s <;> rw [e] at h <;> cases h <;>
      simp [ByteTaken, hp]
  case complete | failed | reserved => cases h

/-- Only a failed attempt ends the operation in the PARSE step (R152, R170). -/
theorem afterTransition_done_of_ne_failed {s : State} (h : s.pstate ≠ .failed) :
    (afterTransition s).done = s.done := by
  by_cases hc : s.pstate = .complete
  · rw [afterTransition_complete hc, setEState_done]
  · rw [afterTransition_reading hc h]

theorem PFail.code_of_byte {f : PFail} (h : f = .length ∨ f = .checksum) : f.code = .length ∨ f.code = .checksum :=
  h.imp (congrArg PFail.code) (congrArg PFail.code)

/-- A PARSE step that raises DONE leaves FB, on a timeout, or ends the operation with LENGTH or CHECKSUM, on a byte. -/
theorem parseStep_raises_done {s t : State} (h : parseStep s = .next t) (hs : s.done = false) (ht : t.done = true) :
    t.fb = s.fb ∨ (t.estate = .idle ∧ t.fail = true ∧ (t.code = .length ∨ t.code = .checksum)) := by
  obtain ⟨b, u, -, hu, rfl⟩ | ⟨-, rfl⟩ := parseStep_cases h
  · obtain ⟨hpub, hcause⟩ := byteTaken_of_onByte hu
    by_cases hf : u.pstate = .failed
    · rw [afterTransition_failed hf]
      exact .inr ⟨rfl, rfl, PFail.code_of_byte (hcause hf)⟩
    · have hdone : u.done = s.done := congrArg Published.done hpub
      rw [afterTransition_done_of_ne_failed hf, hdone, hs] at ht
      cases ht
  · exact .inl (afterTransition_fb _)

/-- SBPF's steps other than PARSE leave FB (R32, R62). -/
theorem sbpfStep_raises_done {p : FlushPolicy} {s t : State} (h : sbpfStep p s = .next t) (hs : s.done = false)
    (ht : t.done = true) :
    t.fb = s.fb ∨
    (s.estate = .parse ∧ t.estate = .idle ∧ t.fail = true ∧ (t.code = .length ∨ t.code = .checksum)) := by
  obtain rfl | ⟨-, rfl⟩ | ⟨-, h⟩ | ⟨-, rfl⟩ | ⟨-, rfl⟩ | ⟨he, h⟩ | ⟨-, h⟩ := sbpfStep_cases h
  · exact .inl rfl
  · exact .inl rfl
  · obtain ⟨_, _, _, rfl⟩ := txsendStep_sends h
    exact .inl rfl
  · unfold rxdirStep
    exact .inl (by split <;> rfl)
  · unfold armStep
    exact .inl (by split <;> rfl)
  · exact (parseStep_raises_done h hs ht).imp_right fun hend => ⟨he, hend⟩
  · obtain ⟨v, rfl⟩ | rfl := filterStep_next h <;> exact .inl rfl

/-- A turn of the reset input raises nothing: it changes nothing, or DONE is 0 after it (R41, R310). -/
theorem driveReset_of_done {level : Bool} {s : State} (h : (driveReset level s).done = true) :
    driveReset level s = s := by
  obtain e | e := driveReset_cases level s
  · exact e
  · simp [e] at h

theorem stepUnder_raises_done {p : FlushPolicy} {s t : State} (h : stepUnder p s = .next t) (hs : s.done = false)
    (ht : t.done = true) :
    t.fb = s.fb ∨
    (s.estate = .parse ∧ t.estate = .idle ∧ t.fail = true ∧ (t.code = .length ∨ t.code = .checksum)) := by
  obtain ⟨rest, hsbpf | ⟨a, -, hhost⟩ | ⟨level, rfl⟩⟩ := stepUnder_turn h
  · have hfb := sbpfStep_raises_done hsbpf hs ht
    exact hfb
  · have hfb := fb_of_hostTurn hhost
    exact .inl hfb
  · rw [driveReset_of_done ht]
    exact .inl rfl

/-- Settles O43: only PARSE stores to FB, and of its ways to raise DONE a timeout stores nothing and a byte gives LENGTH or
CHECKSUM. Within the step the transition stores and what follows it publishes. -/
theorem frameBufferIsFinalAtCompletion : Obligations.FrameBufferIsFinalAtCompletion := by
  refine ⟨fun p s t h hs ht => stepUnder_raises_done h hs ht, fun s t h => ?_⟩
  obtain ⟨u, hu, rfl⟩ := thenState_next h
  have hpub : published u = published s := by
    cases hr : readResult s with
    | byte b =>
      rw [hr] at hu
      exact (byteTaken_of_onByte hu).1
    | timeout =>
      rw [hr] at hu
      rw [onTimeout_next hu]
      rfl
  exact ⟨u, hu, congrArg Published.done hpub, congrArg Published.fail hpub, congrArg Published.code hpub,
    congrArg Published.result hpub, congrArg Published.estate hpub, rfl, afterTransition_fb u⟩

/-! The outcome in IDLE (R74, R321). -/

/-- What stays in IDLE until the next request: STATUS, RESULT, FB, the parser's registers and the record of calls. -/
structure HeldOutcome where
  published : Published
  ovr : Bool
  fb : Memory
  resets : Nat
  pstate : PState
  cnt : BitVec 7
  flen : Byte
  pfail : PFail
  busLog : List BusCall

def heldOutcome (s : State) : HeldOutcome :=
  { published := published s, ovr := s.ovr, fb := s.fb, resets := s.resets, pstate := s.pstate, cnt := s.cnt
    flen := s.flen, pfail := s.pfail, busLog := s.busLog }

section
variable {s t : State} (h : heldOutcome t = heldOutcome s)
include h

theorem published_of_heldOutcome : published t = published s := congrArg HeldOutcome.published h

theorem estate_of_heldOutcome : t.estate = s.estate := congrArg Published.estate (published_of_heldOutcome h)

theorem result_of_heldOutcome : t.result = s.result := congrArg Published.result (published_of_heldOutcome h)

theorem busLog_of_heldOutcome : t.busLog = s.busLog := congrArg HeldOutcome.busLog h

theorem statusWord_of_heldOutcome : statusWord t = statusWord s := by
  have hpub := published_of_heldOutcome h
  have hdone : t.done = s.done := congrArg Published.done hpub
  have hfail : t.fail = s.fail := congrArg Published.fail hpub
  have hcode : t.code = s.code := congrArg Published.code hpub
  have hovr : t.ovr = s.ovr := congrArg HeldOutcome.ovr h
  simp [statusWord, busy, hdone, hfail, hcode, hovr, estate_of_heldOutcome h]

theorem fbRead_of_heldOutcome (i : Nat) : fbRead t i = fbRead s i :=
  fbRead_congr (congrArg HeldOutcome.fb h) (congrArg HeldOutcome.resets h) i

end

/-- A host access that is no write of REQ leaves the outcome (R64, R253 to R256). -/
theorem heldOutcome_of_hostTurn {s t : State} {a : HostAccess} (h : HostTurn s a t) (ha : ∀ n v, a ≠ .write 0x02 n v) :
    heldOutcome t = heldOutcome s := by
  cases h with
  | ignored | read | payload => rfl
  | request n v => exact absurd rfl (ha n v)

/-- No host access touches the turns to come (R69). -/
theorem schedule_of_hostTurn {s t : State} {a : HostAccess} (h : HostTurn s a t) : t.schedule = s.schedule := by
  cases h with
  | ignored | read | payload => rfl
  | request _ _ _ hw => cases hw <;> rfl

/-- The turn from IDLE that is listed next, if it is no write of REQ: it is used up, and leaves the outcome unless it is
a reset (R74, R310, R321). -/
theorem stepUnder_idle (p : FlushPolicy) {s : State} (hs : s.estate = .idle)
    (hreq : ∀ n v, s.schedule.head? ≠ some (.host (.write 0x02 n v))) :
    ∃ t, stepUnder p s = .next t ∧ t.schedule = s.schedule.tail ∧
      (heldOutcome t = heldOutcome s ∨
        ((∃ level, s.schedule.head? = some (.resetInput level)) ∧ t.resets = s.resets + 1)) := by
  match hsched : s.schedule with
  | [] => exact ⟨_, (stepUnder_sbpf (.inr ⟨hsched, rfl⟩)).trans (idleTakesNoStep p _ hs), rfl, .inl rfl⟩
  | .sbpf :: rest => exact ⟨_, (stepUnder_sbpf (.inl hsched)).trans (idleTakesNoStep p _ hs), rfl, .inl rfl⟩
  | .host a :: rest =>
    obtain ⟨t, ht, hturn⟩ := hostAccess_turn a { s with schedule := rest }
    have hheld := heldOutcome_of_hostTurn hturn fun n v ha => hreq n v (by simp [hsched, ha])
    exact ⟨t, (stepUnder_host hsched).trans ht, schedule_of_hostTurn hturn, .inl hheld⟩
  | .resetInput level :: rest =>
    refine ⟨_, stepUnder_resetInput hsched, ?_⟩
    obtain e | e := driveReset_cases level { s with schedule := rest } <;> rw [e]
    · exact ⟨rfl, .inl rfl⟩
    · exact ⟨rfl, .inr ⟨⟨level, rfl⟩, rfl⟩⟩

/-- Settles O45: the turn was no reset, which would have been counted. -/
theorem publishedOutcomeStays : Obligations.PublishedOutcomeStays := by
  intro p s t h hs hresets hreq
  obtain ⟨u, hu, -, hheld | ⟨-, hcounted⟩⟩ := stepUnder_idle p hs hreq <;> cases hu.symm.trans h
  · exact ⟨statusWord_of_heldOutcome hheld, result_of_heldOutcome hheld, congrArg HeldOutcome.fb hheld,
      fbRead_of_heldOutcome hheld, (estate_of_heldOutcome hheld).trans hs, congrArg HeldOutcome.pstate hheld,
      congrArg HeldOutcome.cnt hheld, congrArg HeldOutcome.flen hheld, congrArg HeldOutcome.pfail hheld,
      busLog_of_heldOutcome hheld⟩
  · omega

theorem run_succ_of_step {s u : State} (h : step s = .next u) (n : Nat) :
    Host.Core.run core (n + 1) s = Host.Core.run core n u := by
  simp [Host.Core.run, core, h]

/-- A turn to come that neither starts an operation nor resets: no write of REQ, no drive of the reset input. -/
def QuietTurn (x : Turn) : Prop := (∀ k v, x ≠ .host (.write 0x02 k v)) ∧ ∀ l, x ≠ .resetInput l

/-- A step from IDLE on a quiet turn leaves the outcome. -/
theorem step_quiet {s : State} (hs : s.estate = .idle) (hquiet : ∀ x ∈ s.schedule, QuietTurn x) :
    ∃ t, step s = .next t ∧ t.schedule = s.schedule.tail ∧ heldOutcome t = heldOutcome s := by
  have hhead : ∀ x, s.schedule.head? = some x → QuietTurn x := fun x hx => hquiet x (List.mem_of_head? hx)
  obtain ⟨t, ht, hsched, hheld | ⟨⟨level, hreset⟩, -⟩⟩ :=
    stepUnder_idle Config.flushPolicy hs fun n v hreq => (hhead _ hreq).1 n v rfl
  · exact ⟨t, ht, hsched, hheld⟩
  · exact absurd rfl ((hhead _ hreset).2 level)

/-- Quiet turns from IDLE, any number of them, leave the outcome. -/
theorem run_quiet (n : Nat) {s : State} (hs : s.estate = .idle) (hquiet : ∀ x ∈ s.schedule, QuietTurn x) :
    ∃ t, Host.Core.run core n s = .next t ∧ t.schedule = s.schedule.drop n ∧ heldOutcome t = heldOutcome s := by
  induction n generalizing s with
  | zero => exact ⟨s, rfl, rfl, rfl⟩
  | succ n ih =>
    obtain ⟨u, hstep, husched, huheld⟩ := step_quiet hs hquiet
    have huquiet : ∀ x ∈ u.schedule, QuietTurn x := fun x hx => hquiet x (List.mem_of_mem_tail (husched ▸ hx))
    obtain ⟨t, hrun, htsched, htheld⟩ := ih ((estate_of_heldOutcome huheld).trans hs) huquiet
    exact ⟨t, (run_succ_of_step hstep n).trans hrun, by rw [htsched, husched, List.drop_tail], htheld.trans huheld⟩

/-- Settles O46, by induction on the number of turns. -/
theorem finalValuesAreReadUntilTheNextRequest : Obligations.FinalValuesAreReadUntilTheNextRequest := by
  intro s n hs hquiet
  obtain ⟨t, hrun, hsched, hheld⟩ := run_quiet n hs hquiet
  exact ⟨t, hrun, (estate_of_heldOutcome hheld).trans hs, statusWord_of_heldOutcome hheld, result_of_heldOutcome hheld,
    fbRead_of_heldOutcome hheld, busLog_of_heldOutcome hheld, hsched⟩

end Sys2Proof.Machine
end

section
/-! Encodings (R96, R104 to R107): decoding and encoding are inverse, in each format. -/

namespace Sys2Proof.Machine

/-- Settles O1: the decoder run on each word. -/
theorem wordsDecodeToTheirInstructions : Obligations.WordsDecodeToTheirInstructions := by
  unfold Obligations.WordsDecodeToTheirInstructions
  decide

/-- The byte of a wire command decodes to that command (R96). -/
theorem decodeCmd_of_encode {i : Instr} {c : Byte} (h : encode i = .command c) : decodeCmd c = .ok i := by
  cases i <;> cases h <;> rfl

/-- No operand is out of range for the decoder: ranges are the meanings' matter (entry 11). -/
theorem decode_encode (i : Instr) : decode (encode i) = .ok i := by
  cases hi : encode i with
  | request w => exact decodeReq_of_encode hi
  | command c => exact decodeCmd_of_encode hi

/-- A word whose reserved field is 0 is what its fields pack to, whatever form they are known in. -/
theorem packReq_of_fields {w : ReqWord} {op : BitVec 4} {id : Byte} {a b : Half} (hop : (reqOp w).toNat = op.toNat)
    (hrsv : reqRsv w = 0) (hid : reqId w = id) (ha : reqA w = a) (hb : reqB w = b) : packReq op id a b = w := by
  obtain rfl := BitVec.eq_of_toNat_eq hop
  subst hid ha hb
  exact packReq_split w hrsv

/-- The reserved fields a decoded word was tested for are the zeros the encoder packs (R106, R107). -/
theorem encode_of_decodeReq {w : ReqWord} {i : Instr} (h : decodeReq w = .ok i) : encode i = .request w := by
  unfold decodeReq at h
  split at h
  case h_11 => cases h
  all_goals
    rename_i hop
    obtain ⟨hzero, rfl⟩ := unlessReserved_ok h
    simp only [Bool.or_eq_false_iff, bne_eq_false_iff_eq, and_assoc] at hzero
    apply congrArg CodeWord.request
  -- QUERY_ID, START, STOP and RX_FRAME have no operand.
  case h_1 | h_6 | h_7 | h_10 =>
    obtain ⟨hrsv, hid, ha, hb⟩ := hzero
    exact packReq_of_fields hop hrsv hid ha hb
  -- SET_ID.
  case h_2 =>
    obtain ⟨hrsv, hid, ha, hb⟩ := hzero
    exact packReq_of_fields hop hrsv hid (packByte_argByte _ ha).symm hb
  -- READ_POS.
  case h_3 =>
    obtain ⟨hrsv, ha, hb⟩ := hzero
    exact packReq_of_fields hop hrsv rfl ha hb
  -- MOVE and MOVE_WAIT reserve nothing of their own.
  case h_4 | h_5 => exact packReq_of_fields hop hzero rfl rfl rfl
  -- ENABLE.
  case h_8 =>
    obtain ⟨hrsv, ha, hb⟩ := hzero
    exact packReq_of_fields hop hrsv rfl (packByte_argByte _ ha).symm hb
  -- TX_RAW.
  case h_9 =>
    obtain ⟨hrsv, ha, hb⟩ := hzero
    exact packReq_of_fields hop hrsv rfl (packRaw_arg _ ha).symm hb

/-- Each wire command has one byte (R96). -/
theorem encode_of_decodeCmd {c : Byte} {i : Instr} (h : decodeCmd c = .ok i) : encode i = .command c := by
  unfold decodeCmd at h
  split at h
  case h_9 => cases h
  all_goals
    next hc =>
      cases h
      exact congrArg CodeWord.command (BitVec.eq_of_toNat_eq hc.symm)

/-- Settles O2: encoding and then decoding by the instruction's format, decoding and then encoding by the word's. -/
theorem decodeAndEncodeAgree : Obligations.DecodeAndEncodeAgree := by
  refine ⟨fun i _ => decode_encode i, fun c i h => ?_⟩
  cases c with
  | request w => exact encode_of_decodeReq h
  | command b => exact encode_of_decodeCmd h

end Sys2Proof.Machine
end

section
/-! The frames of the wire commands (R96, R97, R130, R132, R135, R136, R138, R212), on the numbers the statements write. -/

namespace Sys2Proof.Machine

theorem total_cons (b : Byte) (p : List Byte) : SpecText.total (b :: p) = b.toNat + SpecText.total p := rfl

/-- `sum8` is the sum of the bytes mod 256 (R11). -/
theorem sum8_eq_ofNat_total (p : List Byte) : sum8 p = BitVec.ofNat 8 (SpecText.total p) := by
  induction p with
  | nil => rfl
  | cons b p ih => rw [sum8_cons, total_cons, ih, BitVec.ofNat_add, BitVec.ofNat_toNat, BitVec.setWidth_eq]

theorem csum_toNat (p : List Byte) : (csum p).toNat = 255 - SpecText.total p % 256 := by
  rw [csum, BitVec.toNat_not, sum8_eq_ofNat_total, BitVec.toNat_ofNat]

theorem csum_eq_ofNat_total (p : List Byte) : csum p = BitVec.ofNat 8 (255 - SpecText.total p % 256) := by
  rw [← csum_toNat, BitVec.ofNat_toNat, BitVec.setWidth_eq]

/-- Sending a request is the TXSEND step on the frame's body (R132, R138). -/
theorem sendRequest_eq_sent (id cmd : Byte) (p : List Byte) (s : State) :
    sendRequest id cmd p s = SpecText.sent s (frameBody id cmd p) := by
  rw [SpecText.sent, ← sum8_eq_ofNat_total, ← csum_eq_ofNat_total]
  rfl

theorem lowByte_eq_lo (v : Half) : lowByte v = SpecText.lo v := by
  refine BitVec.eq_of_toNat_eq ?_
  simp [lowByte_toNat, SpecText.lo]

theorem highByte_eq_hi (v : Half) : highByte v = SpecText.hi v := by
  refine BitVec.eq_of_toNat_eq ?_
  rw [highByte_toNat, SpecText.hi, BitVec.toNat_ofNat]
  omega

theorem clampPos_eq_clamped (a : Half) : clampPos a = SpecText.clamped a := rfl

/-- A move's payload (R97, R136; entry 16). -/
theorem movePayload_eq (s : State) :
    movePayload s =
      [SpecText.lo (SpecText.clamped s.ra), SpecText.hi (SpecText.clamped s.ra), SpecText.lo s.rb, SpecText.hi s.rb] := by
  simp only [movePayload, lowByte_eq_lo, highByte_eq_hi, clampPos_eq_clamped]

/-- A new id or a mode as a payload (R97, R136). -/
theorem bytePayload_eq (s : State) : bytePayload s = [SpecText.lo s.ra] := congrArg (fun b => [b]) (lowByte_eq_lo s.ra)

theorem sendRequest_movePayload (id cmd : Byte) (s : State) :
    sendRequest id cmd (movePayload s) s = SpecText.sent s
      [id, 7, cmd, SpecText.lo (SpecText.clamped s.ra), SpecText.hi (SpecText.clamped s.ra), SpecText.lo s.rb, SpecText.hi s.rb] := by
  rw [sendRequest_eq_sent, movePayload_eq]
  rfl

theorem sendRequest_bytePayload (id cmd : Byte) (s : State) :
    sendRequest id cmd (bytePayload s) s = SpecText.sent s [id, 4, cmd, SpecText.lo s.ra] := by
  rw [sendRequest_eq_sent, bytePayload_eq]
  rfl

theorem sendRequest_nil (id cmd : Byte) (s : State) : sendRequest id cmd [] s = SpecText.sent s [id, 3, cmd] :=
  sendRequest_eq_sent id cmd [] s

/-- Settles O10: each wire command sends a request, and its payload has one of three forms. -/
theorem wireCommandsSendTheirFrames : Obligations.WireCommandsSendTheirFrames := by
  intro s
  refine ⟨?moveTimeWrite, ?moveTimeWaitWrite, ?moveStart, ?moveStop, ?idWrite, ?idRead, ?posRead, ?loadUnloadWrite⟩
  case moveTimeWrite | moveTimeWaitWrite => exact congrArg Host.Outcome.next (sendRequest_movePayload ..)
  case idWrite | loadUnloadWrite => exact congrArg Host.Outcome.next (sendRequest_bytePayload ..)
  case moveStart | moveStop | idRead | posRead => exact congrArg Host.Outcome.next (sendRequest_nil ..)

end Sys2Proof.Machine
end

section
/-! The checksum (R130, R131) and the encoded frame's bytes (R132). -/

namespace Sys2Proof.Machine

/-- Settles O15: the law is `csum_eq_ofNat_total` read as a number, and each corner case is that law at its sum. -/
theorem checksumIsTheComplementOfTheSum : Obligations.ChecksumIsTheComplementOfTheSum := by
  refine ⟨csum_toNat, rfl, ?zeroSum, ?fullSum, rfl⟩
  case zeroSum | fullSum =>
    intro p h
    rw [csum_eq_ofNat_total, h]
    rfl

/-- The checksum completes its list to 0xFF (R131). -/
theorem sum8_append_csum (p : List Byte) : sum8 (p ++ [csum p]) = 0xFF := by
  rw [sum8_append, sum8_cons, sum8_nil, add_zero, csum, BitVec.add_not_self]
  rfl

/-- From its id on, an encoded frame is its body and the body's checksum (R132). -/
theorem encodeFrame_drop_two (id cmd : Byte) (p : List Byte) :
    (encodeFrame id cmd p).drop 2 = frameBody id cmd p ++ [csum (frameBody id cmd p)] := rfl

/-- Replacing one byte keeps the sum only if the byte is kept: the bytes before and after it cancel. -/
theorem getElem_eq_of_sum8_set {body : List Byte} {k : Nat} {b : Byte} (hk : k < body.length)
    (h : sum8 (body.set k b) = sum8 body) : body[k] = b := by
  have hbody : sum8 body = sum8 (body.take k) + (body[k] + sum8 (body.drop (k + 1))) := by
    rw [← sum8_cons, ← sum8_append, List.getElem_cons_drop, List.take_append_drop]
  rw [hbody, List.set_eq_take_append_cons_drop, if_pos hk, sum8_append, sum8_cons] at h
  exact (add_right_cancel (add_left_cancel h)).symm

/-- Settles O16: the checksum completes every list to 0xFF, an encoded frame's body among them, and a changed byte changes
the sum. -/
theorem checksumLaw : Obligations.ChecksumLaw := by
  refine ⟨sum8_append_csum, ?encoded, ?changed⟩
  case encoded =>
    intro id cmd p
    rw [encodeFrame_drop_two, sum8_append_csum]
  case changed =>
    intro body k b hk hvalid hne hset
    exact hne (getElem_eq_of_sum8_set hk (hset.trans hvalid.symm))

/-- Settles O17: the layout is the definition of `encode`, and its length is counted once in Laws/Codec.lean. -/
theorem encodedFrameLayout : Obligations.EncodedFrameLayout :=
  fun id cmd p _ => ⟨rfl, encodeFrame_length id cmd p⟩

end Sys2Proof.Machine
end

section
/-! SBPF's steps on the transmit side: TXDIR, TXSEND and RXDIR (R136 to R139). -/

namespace Sys2Proof.Machine

/-- `TXPL[i]` depends on TXPL alone, and on which reset left its unspecified bytes. -/
theorem txplRead_congr {s t : State} (h : t.txpl = s.txpl) (hr : t.resets = s.resets) (i : Nat) :
    txplRead t i = txplRead s i := by
  simp [txplRead, h, hr]

/-- Settles O11: a wire command sends a request, which touches neither buffer. -/
theorem wireCommandsFrame : Obligations.WireCommandsFrame := by
  intro i s t hi h
  obtain ⟨id, cmd, p, hsend⟩ := exec_wireCommand hi s
  obtain rfl : sendRequest id cmd p s = t := Host.Outcome.next.inj (hsend.symm.trans h)
  exact ⟨fun a => ⟨fbRead_congr rfl rfl a, txplRead_congr rfl rfl a⟩, rfl, encodeFrame id cmd p, rfl⟩

section
variable {p : FlushPolicy} {s : State} (hrst : s.rst = false) (hp : s.pstate ≠ .reserved)
include hrst hp

theorem sbpfStep_txdir (he : s.estate = .txdir) : sbpfStep p s = .next (txdirStep s) := by
  simp [sbpfStep_engineStep hrst hp, engineStep, he]

theorem sbpfStep_txsend (he : s.estate = .txsend) : sbpfStep p s = txsendStep s := by
  simp [sbpfStep_engineStep hrst hp, engineStep, he]

theorem sbpfStep_rxdir (he : s.estate = .rxdir) : sbpfStep p s = .next (rxdirStep s) := by
  simp [sbpfStep_engineStep hrst hp, engineStep, he]

/-- TXSEND runs the wire command its operation fixes (R136, R138). -/
theorem sbpfStep_txsend_command (he : s.estate = .txsend) {op : BitVec 4} {c : Byte} {i : Instr} (hop : s.opr = op)
    (hc : commandOf op = some c) (hi : decodeCmd c = .ok i) : sbpfStep p s = exec i s := by
  subst hop
  rw [sbpfStep_txsend hrst hp he, txsendStep_command hc hi]

end

/-- Settles O19: the step is the direction call and the move to TXSEND, whatever DIR was. -/
theorem txdirStepTransmits : Obligations.TxdirStep :=
  fun _ _ hrst hp he => sbpfStep_txdir hrst hp he

/-- A raw frame's length byte counts the payload taken from TXPL (R132, R136). -/
theorem frameBody_txplTake (id cmd : Byte) (n : Nat) (s : State) :
    frameBody id cmd (txplTake n s) = [id, BitVec.ofNat 8 (3 + n), cmd] ++ (List.range n).map (txplRead s) := by
  simp [frameBody, lengthByte, txplTake]

/-- TX_RAW within its payload sends the host's command byte and bytes (R136, R209). -/
theorem txsendStep_txRaw {s : State} (hop : s.opr = Op.txRaw) (hn : s.ra.toNat / 256 % 64 ≤ 59) :
    txsendStep s = .next (SpecText.sent s
      ([s.rid, BitVec.ofNat 8 (3 + s.ra.toNat / 256 % 64), SpecText.lo s.ra] ++
        (List.range (s.ra.toNat / 256 % 64)).map (txplRead s))) := by
  have hfits : ¬ (argCount s.ra).toNat > Config.maxTxPayload := by
    rw [argCount_toNat]
    exact Nat.not_lt.mpr hn
  have hcmd : argByte s.ra = SpecText.lo s.ra := lowByte_eq_lo s.ra
  rw [txsendStep, if_pos hop, sendRaw, if_neg hfits, sendRequest_eq_sent, frameBody_txplTake, argCount_toNat, hcmd]

/-- Settles O20: TXSEND runs the wire command the operation fixes, whose frame O10 gives; TX_RAW sends the host's. -/
theorem txsendStepSendsTheRequestFrame : Obligations.TxsendStepSendsTheRequestFrame := by
  intro p s hrst hp he
  obtain ⟨moveTimeWrite, moveTimeWaitWrite, moveStart, moveStop, idWrite, idRead, posRead, loadUnloadWrite⟩ :=
    wireCommandsSendTheirFrames s
  refine ⟨?queryId, ?setId, ?readPos, ?move, ?moveWait, ?start, ?stop, ?enable, ?txRaw⟩
  case queryId => exact fun hop => (sbpfStep_txsend_command hrst hp he hop rfl rfl).trans idRead
  case setId => exact fun hop => (sbpfStep_txsend_command hrst hp he hop rfl rfl).trans idWrite
  case readPos => exact fun hop => (sbpfStep_txsend_command hrst hp he hop rfl rfl).trans posRead
  case move => exact fun hop => (sbpfStep_txsend_command hrst hp he hop rfl rfl).trans moveTimeWrite
  case moveWait => exact fun hop => (sbpfStep_txsend_command hrst hp he hop rfl rfl).trans moveTimeWaitWrite
  case start => exact fun hop => (sbpfStep_txsend_command hrst hp he hop rfl rfl).trans moveStart
  case stop => exact fun hop => (sbpfStep_txsend_command hrst hp he hop rfl rfl).trans moveStop
  case enable => exact fun hop => (sbpfStep_txsend_command hrst hp he hop rfl rfl).trans loadUnloadWrite
  case txRaw => exact fun hop hn => (sbpfStep_txsend hrst hp he).trans (txsendStep_txRaw hop hn)

/-- The operations that await a frame are QUERY_ID, READ_POS and RX_FRAME (R139, R194). -/
theorem awaitsFrame_iff (op : BitVec 4) : awaitsFrame op = true ↔ op = 1 ∨ op = 3 ∨ op = 10 := by
  simp [awaitsFrame, or_assoc]

/-- Settles O21, by whether the operation awaits a frame. -/
theorem rxdirStepReceives : Obligations.RxdirStep := by
  intro p s hrst hp he
  rw [sbpfStep_rxdir hrst hp he]
  refine congrArg Host.Outcome.next ?_
  by_cases h : s.opr = 1 ∨ s.opr = 3 ∨ s.opr = 10
  · rw [if_pos h, rxdirStep, if_pos ((awaitsFrame_iff _).mpr h)]
    rfl
  · rw [if_neg h, rxdirStep, if_neg (mt (awaitsFrame_iff _).mp h)]
    rfl

end Sys2Proof.Machine
end

section
/-! SBPF's steps on the receive side: ARM, and PARSE on a byte and on a timeout in each state of the parser (R151 to R160). -/

namespace Sys2Proof.Machine

theorem parseStep_byte {s : State} {b : Byte} (h : readResult s = .byte b) :
    parseStep s = thenState (onByte b (tRead s)) afterTransition := by
  simp [parseStep, h]

theorem parseStep_timeout {s : State} (h : readResult s = .timeout) :
    parseStep s = thenState (onTimeout (tRead s)) afterTransition := by
  simp [parseStep, h]

section
variable {b : Byte} {s : State}

/-! The transition table, by its rows for a byte (R153 to R158). -/

theorem onByte_seekSync1 (h : s.pstate = .seekSync1) : onByte b s = .next (onSeekSync1 b s) := by simp [onByte, h]
theorem onByte_seekSync2 (h : s.pstate = .seekSync2) : onByte b s = .next (onSeekSync2 b s) := by simp [onByte, h]
theorem onByte_readId (h : s.pstate = .readId) : onByte b s = .next (onReadId b s) := by simp [onByte, h]
theorem onByte_readLength (h : s.pstate = .readLength) : onByte b s = .next (onReadLength b s) := by simp [onByte, h]
theorem onByte_readBody (h : s.pstate = .readBody) : onByte b s = onReadBody b s := by simp [onByte, h]

theorem onReadLength_inRange (hmin : 3 ≤ b.toNat) (hmax : b.toNat ≤ 63) :
    onReadLength b s = setPState .readBody (storeLength b s) :=
  if_neg (not_or.mpr ⟨Nat.not_lt.mpr hmin, Nat.not_lt.mpr hmax⟩)

theorem onReadLength_outOfRange (h : b.toNat < 3 ∨ 63 < b.toNat) :
    onReadLength b s = parseFail .length (storeLength b s) := if_pos h

/-- READ_BODY before the last byte of the body: the byte is stored (R157). -/
theorem onReadBody_before_last (hflen : s.flen.toNat ≤ 63) (hlt : s.cnt.toNat < s.flen.toNat) :
    onReadBody b s = .next (storeByte b s) := by
  have hin : ¬ (s.cnt.toNat ≥ Config.fbCap ∨ s.cnt.toNat > s.flen.toNat) := by simp; omega
  rw [onReadBody, if_neg hin, if_pos (Nat.succ_lt_succ hlt)]

/-- READ_BODY on the last byte of the body: the byte is stored and the validator tests the sum (R158). -/
theorem onReadBody_last (hflen : s.flen.toNat ≤ 63) (heq : s.cnt.toNat = s.flen.toNat) :
    onReadBody b s = .next (if s.acc + b = 0xFF then setPState .complete (storeByte b s)
      else parseFail .checksum (storeByte b s)) := by
  have hin : ¬ (s.cnt.toNat ≥ Config.fbCap ∨ s.cnt.toNat > s.flen.toNat) := by simp; omega
  have hlast : ¬ s.cnt.toNat + 1 < s.flen.toNat + 1 := by omega
  rw [onReadBody, if_neg hin, if_neg hlast]
  split <;> rfl

end

/-- The five states in which the parser reads (R27, R160). -/
theorem onTimeout_reading {s : State}
    (h : s.pstate = .seekSync1 ∨ s.pstate = .seekSync2 ∨ s.pstate = .readId ∨ s.pstate = .readLength ∨
      s.pstate = .readBody) :
    onTimeout s = .next (parseFail .timeout s) := by
  rcases h with h | h | h | h | h <;> simp [onTimeout, h]

/-- A failed attempt ends its operation in the same step, with the cause's own code (R170, R197, R274). -/
theorem afterTransition_parseFail (f : PFail) (s : State) :
    afterTransition (parseFail f s) = SpecText.parseFailed s f f.code :=
  afterTransition_failed rfl

section
variable {p : FlushPolicy} {s : State} (hrst : s.rst = false)
include hrst

theorem sbpfStep_arm (hp : s.pstate ≠ .reserved) (he : s.estate = .arm) : sbpfStep p s = .next (armStep p s) := by
  simp [sbpfStep_engineStep hrst hp, engineStep, he]

theorem sbpfStep_parse (hp : s.pstate ≠ .reserved) (he : s.estate = .parse) : sbpfStep p s = parseStep s := by
  simp [sbpfStep_engineStep hrst hp, engineStep, he]

/-- A PARSE step on a byte, from what the transition table answers for it (R152). -/
theorem sbpfStep_parse_byte {b : Byte} {u : State} (he : s.estate = .parse) (hread : readResult s = .byte b)
    (h : onByte b (tRead s) = .next u) : sbpfStep p s = .next (afterTransition u) := by
  have hp : s.pstate ≠ .reserved := fun hres => by simp [onByte, hres] at h
  rw [sbpfStep_parse hrst hp he, parseStep_byte hread, h]
  rfl

end

/-- Settles O22: the step is the flush the policy asks for, then the parser's registers. -/
theorem armStepStartsTheAttempt : Obligations.ArmStep :=
  fun _ _ hrst hp he => sbpfStep_arm hrst hp he

/-- Settles O24, in each state by whether the byte is the sync byte. -/
theorem syncDetectorTransitions : Obligations.SyncDetectorTransitions := by
  intro p s b hrst he hread
  refine ⟨fun hq => ?first, fun hq => ?second⟩
  case first =>
    rw [sbpfStep_parse_byte hrst he hread (onByte_seekSync1 hq), onSeekSync1]
    split
    · rfl
    · rw [afterTransition_reading (by simp [hq]) (by simp [hq]), ← hq]
      rfl
  case second =>
    rw [sbpfStep_parse_byte hrst he hread (onByte_seekSync2 hq), onSeekSync2]
    split <;> rfl

/-- Settles O25: READ_ID stores without a test, and READ_LENGTH stores before its test. -/
theorem headerByteTransitions : Obligations.HeaderByteTransitions := by
  intro p s b hrst he hread
  refine ⟨fun hq => ?id, fun hq hmin hmax => ?inRange, fun hq hout => ?outOfRange⟩
  case id => exact sbpfStep_parse_byte hrst he hread (onByte_readId hq)
  case inRange =>
    rw [sbpfStep_parse_byte hrst he hread (onByte_readLength hq), onReadLength_inRange hmin hmax]
    rfl
  case outOfRange =>
    rw [sbpfStep_parse_byte hrst he hread (onByte_readLength hq), onReadLength_outOfRange hout, afterTransition_parseFail]
    rfl

/-- Settles O26: FLEN at most 63 leaves out the overrun, and the last byte's sum decides between FILTER and a failed attempt. -/
theorem bodyByteTransitions : Obligations.BodyByteTransitions := by
  intro p s b hrst he hread hq hflen
  have hstep {u : State} (h : onReadBody b (tRead s) = .next u) : sbpfStep p s = .next (afterTransition u) :=
    sbpfStep_parse_byte hrst he hread ((onByte_readBody (s := tRead s) hq).trans h)
  refine ⟨fun hlt => ?store, fun heq hsum => ?complete, fun heq hsum => ?checksum⟩
  case store =>
    rw [hstep (onReadBody_before_last hflen (Nat.lt_of_succ_lt_succ hlt)),
      afterTransition_reading (by simp [hq]) (by simp [hq])]
    rfl
  case complete =>
    rw [hstep (onReadBody_last hflen (Nat.succ.inj heq)), tRead_acc, if_pos hsum, afterTransition_complete rfl, ← hsum]
    rfl
  case checksum =>
    rw [hstep (onReadBody_last hflen (Nat.succ.inj heq)), tRead_acc, if_neg hsum, afterTransition_parseFail]
    rfl

/-- Settles O27: the transition table has one row for a timeout in the five reading states. -/
theorem timeoutEndsTheOperation : Obligations.TimeoutEndsTheOperation := by
  intro p s hrst he hread hreading
  have hp : s.pstate ≠ .reserved := by rcases hreading with h | h | h | h | h <;> simp [h]
  have hnext : onTimeout (tRead s) = .next (parseFail .timeout (tRead s)) := onTimeout_reading hreading
  rw [sbpfStep_parse hrst hp he, parseStep_timeout hread, hnext]
  exact congrArg Host.Outcome.next (afterTransition_parseFail .timeout (tRead s))

end Sys2Proof.Machine
end

section
/-! Whole attempts on a frame (R151 to R163): the state after each byte in closed form, and the runs that lead through it. -/

namespace Sys2Proof.Machine

/-! Runs of SBPF's own steps. -/

theorem run_add_of_run {m : Nat} {s t : State} (h : Host.Core.run core m s = .next t) (n : Nat) :
    Host.Core.run core (m + n) s = Host.Core.run core n t := by
  induction m generalizing s with
  | zero =>
    cases h
    rw [Nat.zero_add]
  | succ m ih =>
    rw [Nat.add_right_comm]
    cases hs : step s with
    | next u =>
      rw [run_succ_of_step hs] at h ⊢
      exact ih h
    | fault r | refused r => simp [Host.Core.run, core, hs] at h

theorem run_one (s : State) : Host.Core.run core 1 s = step s := by
  cases h : step s <;> simp [Host.Core.run, core, h]

/-- With no turn listed SBPF has it. -/
theorem step_eq_sbpfStep {s : State} (h : s.schedule = []) : step s = sbpfStep Config.flushPolicy s := by
  simp [step, stepUnder, h]

/-! The bytes of an attempt. -/

/-- FB with the bytes an attempt holds written from index 0 on. -/
def Memory.store (m : Memory) (held : List Byte) : Memory :=
  held.zipIdx.foldl (fun m c => Memory.write m c.2 c.1) m

theorem Memory.store_append_singleton (m : Memory) (held : List Byte) (b : Byte) :
    Memory.store m (held ++ [b]) = Memory.write (Memory.store m held) held.length b := by
  simp [Memory.store, List.zipIdx_append]

/-- The bytes an attempt holds are read back as a list. -/
theorem fbTake_store (held : List Byte) (s : State) :
    fbTake held.length { s with fb := Memory.store s.fb held } = held := by
  induction held using List.reverseRecOn with
  | nil => rfl
  | append_singleton held b ih =>
    have hwrite := fbTake_succ_of_write (s := { s with fb := Memory.store s.fb held })
      (t := { s with fb := Memory.store s.fb (held ++ [b]) }) (Memory.store_append_singleton s.fb held b) rfl
    rw [List.length_append, List.length_singleton, hwrite, ih]

/-- The attempt that ARM began in `s`, after `n` reads: at `q`, holding these bytes, with `rest` unread. FLEN is the second
byte held (R156). -/
def attempt (s : State) (n : Nat) (q : PState) (held : List Byte) (rest : List ReadResult) : State :=
  { s with
    pstate := q
    acc := sum8 held
    cnt := BitVec.ofNat 7 held.length
    flen := held.getD 1 0
    fb := Memory.store s.fb held
    rxStream := rest
    busLog := List.replicate n (.read Config.tByteMs) ++ s.busLog }

theorem fbTake_attempt (s : State) (n : Nat) (q : PState) (held : List Byte) (rest : List ReadResult) :
    fbTake held.length (attempt s n q held rest) = held :=
  (fbTake_congr rfl rfl _).trans (fbTake_store held s)

theorem cnt_attempt {held : List Byte} (h : held.length < 128) (s : State) (n : Nat) (q : PState)
    (rest : List ReadResult) : (attempt s n q held rest).cnt.toNat = held.length := by
  simp [attempt, Nat.mod_eq_of_lt h]

/-- A new attempt holds nothing (R151). -/
theorem attempt_startAttempt (s : State) :
    attempt (startAttempt s) 0 .seekSync1 [] s.rxStream = startAttempt s := rfl

theorem tRead_attempt (s : State) (n : Nat) (q : PState) (held : List Byte) (b : Byte) (rest : List ReadResult) :
    tRead (attempt s n q held (.byte b :: rest)) = attempt s (n + 1) q held rest := by
  simp [tRead, attempt, List.replicate_succ]

theorem onReadId_attempt (s : State) (n : Nat) (q : PState) (b : Byte) (rest : List ReadResult) :
    onReadId b (attempt s n q [] rest) = attempt s n .readLength [b] rest := by
  simp [onReadId, attempt, Memory.store]

theorem storeLength_attempt (s : State) (n : Nat) (q : PState) (id b : Byte) (rest : List ReadResult) :
    storeLength b (attempt s n q [id] rest) = attempt s n q [id, b] rest := by
  simp [storeLength, attempt, Memory.store]

theorem sum8_append_singleton (held : List Byte) (b : Byte) : sum8 (held ++ [b]) = sum8 held + b := by simp

/-- A byte of the body goes to the end of the bytes held, past the length byte. -/
theorem storeByte_attempt {id len : Byte} {body : List Byte} (h : (id :: len :: body).length < 128) (s : State) (n : Nat)
    (q : PState) (b : Byte) (rest : List ReadResult) :
    storeByte b (attempt s n q (id :: len :: body) rest) = attempt s n q (id :: len :: (body ++ [b])) rest := by
  have hheld : id :: len :: (body ++ [b]) = (id :: len :: body) ++ [b] := rfl
  rw [storeByte, cnt_attempt h, hheld]
  simp only [attempt, Memory.store_append_singleton, sum8_append_singleton, List.length_append, BitVec.ofNat_add]
  rfl

/-! One step per byte. -/

/-- SBPF has every turn, and ARM has begun an attempt. -/
structure Reading (s : State) : Prop where
  released : s.rst = false
  unlisted : s.schedule = []
  engine : s.estate = .parse

section
variable {s : State} (h : Reading s) (n : Nat)
include h

/-- A step of an attempt on a byte (R152). -/
theorem step_attempt {q : PState} (hq : q ≠ .reserved) (held : List Byte) (b : Byte) (rest : List ReadResult) :
    step (attempt s n q held (.byte b :: rest)) = thenState (onByte b (attempt s (n + 1) q held rest)) afterTransition := by
  have hs : Reading (attempt s n q held (.byte b :: rest)) := ⟨h.released, h.unlisted, h.engine⟩
  rw [step_eq_sbpfStep hs.unlisted, sbpfStep_parse hs.released hq hs.engine, parseStep_byte rfl, tRead_attempt]

theorem step_noise {b : Byte} (hb : b ≠ 0x55) (rest : List ReadResult) :
    step (attempt s n .seekSync1 [] (.byte b :: rest)) = .next (attempt s (n + 1) .seekSync1 [] rest) := by
  rw [step_attempt h n (q := .seekSync1) nofun, onByte_seekSync1 rfl, onSeekSync1, if_neg hb]
  rfl

theorem step_sync1 (rest : List ReadResult) :
    step (attempt s n .seekSync1 [] (.byte 0x55 :: rest)) = .next (attempt s (n + 1) .seekSync2 [] rest) := by
  rw [step_attempt h n (q := .seekSync1) nofun, onByte_seekSync1 rfl, onSeekSync1, if_pos rfl]
  rfl

theorem step_sync2 (rest : List ReadResult) :
    step (attempt s n .seekSync2 [] (.byte 0x55 :: rest)) = .next (attempt s (n + 1) .readId [] rest) := by
  rw [step_attempt h n (q := .seekSync2) nofun, onByte_seekSync2 rfl, onSeekSync2, if_pos rfl]
  rfl

theorem step_id (id : Byte) (rest : List ReadResult) :
    step (attempt s n .readId [] (.byte id :: rest)) = .next (attempt s (n + 1) .readLength [id] rest) := by
  rw [step_attempt h n (q := .readId) nofun, onByte_readId rfl, onReadId_attempt]
  rfl

theorem step_length (id : Byte) {len : Byte} (hmin : 3 ≤ len.toNat) (hmax : len.toNat ≤ 63) (rest : List ReadResult) :
    step (attempt s n .readLength [id] (.byte len :: rest)) = .next (attempt s (n + 1) .readBody [id, len] rest) := by
  rw [step_attempt h n (q := .readLength) nofun, onByte_readLength rfl, onReadLength_inRange hmin hmax, storeLength_attempt]
  rfl

section
variable (id : Byte) {len : Byte} (hmax : len.toNat ≤ 63) {body : List Byte} (b : Byte) (rest : List ReadResult)
include hmax

theorem step_body (hlt : body.length + 2 < len.toNat) :
    step (attempt s n .readBody (id :: len :: body) (.byte b :: rest)) =
      .next (attempt s (n + 1) .readBody (id :: len :: (body ++ [b])) rest) := by
  have hfits : (id :: len :: body).length < 128 := by simp; omega
  have hcnt := cnt_attempt hfits s (n + 1) .readBody rest
  rw [step_attempt h n (q := .readBody) nofun, onByte_readBody rfl, onReadBody_before_last hmax (hcnt ▸ hlt),
    storeByte_attempt hfits]
  rfl

/-- The last byte: the bytes held are the frame's, and their sum decides (R158). -/
theorem step_last (heq : body.length + 2 = len.toNat) :
    step (attempt s n .readBody (id :: len :: body) (.byte b :: rest)) =
      .next (if sum8 (id :: len :: (body ++ [b])) = 0xFF
        then setEState .filter (attempt s (n + 1) .complete (id :: len :: (body ++ [b])) rest)
        else SpecText.parseFailed (attempt s (n + 1) .readBody (id :: len :: (body ++ [b])) rest) .checksum .checksum) := by
  have hfits : (id :: len :: body).length < 128 := by simp; omega
  have hcnt := cnt_attempt hfits s (n + 1) .readBody rest
  have hsum : sum8 (id :: len :: (body ++ [b])) = (attempt s (n + 1) .readBody (id :: len :: body) rest).acc + b :=
    sum8_append_singleton (id :: len :: body) b
  rw [step_attempt h n (q := .readBody) nofun, onByte_readBody rfl, onReadBody_last hmax (hcnt.trans heq),
    storeByte_attempt hfits, hsum]
  split <;> rfl

end

end

/-! Runs through the parts of a frame. -/

section
variable {s : State} (h : Reading s)
include h

theorem run_noise {noise : List Byte} (hnoise : ∀ b ∈ noise, b ≠ 0x55) (n : Nat) (rest : List ReadResult) :
    Host.Core.run core noise.length (attempt s n .seekSync1 [] (SpecText.bytes noise ++ rest)) =
      .next (attempt s (n + noise.length) .seekSync1 [] rest) := by
  induction noise generalizing n with
  | nil => rfl
  | cons b noise ih =>
    obtain ⟨hb, hnoise⟩ := List.forall_mem_cons.mp hnoise
    have hstep := step_noise h n hb (SpecText.bytes noise ++ rest)
    have hrun := ih hnoise (n + 1)
    rw [Nat.add_right_comm] at hrun
    exact (run_succ_of_step hstep _).trans hrun

/-- The sync bytes, the id and the length byte. -/
theorem run_header (id : Byte) {len : Byte} (hmin : 3 ≤ len.toNat) (hmax : len.toNat ≤ 63) (n : Nat)
    (rest : List ReadResult) :
    Host.Core.run core 4 (attempt s n .seekSync1 [] (SpecText.bytes [0x55, 0x55, id, len] ++ rest)) =
      .next (attempt s (n + 4) .readBody [id, len] rest) :=
  calc _ = _ := run_succ_of_step (step_sync1 h n _) 3
    _ = _ := run_succ_of_step (step_sync2 h (n + 1) _) 2
    _ = _ := run_succ_of_step (step_id h (n + 2) id _) 1
    _ = _ := run_succ_of_step (step_length h (n + 3) id hmin hmax _) 0

/-- Bytes of the body, up to any of them before the last. -/
theorem run_body (id : Byte) {len : Byte} (hmax : len.toNat ≤ 63) {body bs : List Byte}
    (hlen : body.length + bs.length + 2 ≤ len.toNat) (n : Nat) (rest : List ReadResult) :
    Host.Core.run core bs.length (attempt s n .readBody (id :: len :: body) (SpecText.bytes bs ++ rest)) =
      .next (attempt s (n + bs.length) .readBody (id :: len :: (body ++ bs)) rest) := by
  induction bs generalizing body n with
  | nil => rw [List.append_nil]; rfl
  | cons b bs ih =>
    rw [List.length_cons] at hlen
    have hstep := step_body h n id hmax (body := body) b (SpecText.bytes bs ++ rest) (by omega)
    have hrun := ih (body := body ++ [b]) (by simp; omega) (n + 1)
    rw [List.append_assoc, List.singleton_append, Nat.add_right_comm] at hrun
    exact (run_succ_of_step hstep _).trans hrun

end

/-- An attempt is armed: SBPF has every turn, and the flush drops nothing. -/
structure Armed (s : State) : Prop where
  released : s.rst = false
  legal : s.pstate ≠ .reserved
  unlisted : s.schedule = []
  engine : s.estate = .arm
  keeps : flushAmount s = 0

/-- The state of SBPF-v7 after its ARM step (R151). -/
theorem step_armed {s : State} (h : Armed s) :
    step s = .next (attempt (startAttempt (tFlush s)) 0 .seekSync1 [] s.rxStream) := by
  have hrx : s.rxStream = (tFlush s).rxStream := by rw [tFlush_rxStream, h.keeps, List.drop_zero]
  rw [step_eq_sbpfStep h.unlisted, sbpfStep_arm h.released h.legal h.engine, hrx, attempt_startAttempt]
  rfl

theorem reading_startAttempt {s : State} (h : Armed s) : Reading (startAttempt (tFlush s)) :=
  ⟨h.released, h.unlisted, rfl⟩

section
variable {s : State} (h : Armed s) {noise : List Byte} (hnoise : ∀ b ∈ noise, b ≠ 0x55) {id len : Byte} {body : List Byte}
  {last : Byte} (hbody : body ≠ []) (hlen : len.toNat = body.length + 2) (hmax : len.toNat ≤ 63) {rest : List ReadResult}
  (hrx : s.rxStream = SpecText.bytes (noise ++ 0x55 :: 0x55 :: id :: len :: (body ++ [last])) ++ rest)
include h hnoise hbody hlen hmax hrx

/-- From ARM through noise and a frame up to its last byte. -/
theorem run_until_last :
    Host.Core.run core (1 + (noise.length + (4 + body.length))) s =
      .next (attempt (startAttempt (tFlush s)) (noise.length + (4 + body.length)) .readBody (id :: len :: body)
        (.byte last :: rest)) := by
  have hr := reading_startAttempt h
  have hpos : 0 < body.length := List.length_pos_iff.mpr hbody
  have hbytes : s.rxStream = SpecText.bytes noise ++ (SpecText.bytes [0x55, 0x55, id, len] ++
      (SpecText.bytes body ++ (.byte last :: rest))) := by simp [hrx, SpecText.bytes]
  rw [run_add_of_run ((run_one s).trans (step_armed h)), hbytes, run_add_of_run (run_noise hr hnoise 0 _),
    run_add_of_run (run_header hr id (by omega) hmax _ _), run_body hr id hmax (body := []) (by simp; omega)]
  simp [Nat.add_assoc]

/-- From ARM through noise and a frame: the validator decides by the sum of the frame's bytes (R158, R161). -/
theorem run_frame :
    Host.Core.run core (1 + (noise.length + (5 + body.length))) s =
      .next (if sum8 (id :: len :: (body ++ [last])) = 0xFF
        then setEState .filter
          (attempt (startAttempt (tFlush s)) (noise.length + (5 + body.length)) .complete (id :: len :: (body ++ [last])) rest)
        else SpecText.parseFailed
          (attempt (startAttempt (tFlush s)) (noise.length + (5 + body.length)) .readBody (id :: len :: (body ++ [last])) rest)
          .checksum .checksum) := by
  have hcount : 1 + (noise.length + (5 + body.length)) = 1 + (noise.length + (4 + body.length)) + 1 := by omega
  have hreads : noise.length + (5 + body.length) = noise.length + (4 + body.length) + 1 := by omega
  rw [hcount, run_add_of_run (run_until_last h hnoise hbody hlen hmax hrx), run_one, hreads]
  exact step_last (reading_startAttempt h) _ id hmax last rest hlen.symm

end

theorem lengthByte_toNat {p : List Byte} (h : p.length ≤ 60) : (lengthByte p).toNat = p.length + 3 := by
  simp [lengthByte]
  omega

theorem sum8_encodeFrame (id cmd : Byte) (p : List Byte) : sum8 ((encodeFrame id cmd p).drop 2) = 0xFF := by
  rw [encodeFrame_drop_two, sum8_append_csum]

/-- From ARM through noise and an encoded frame: COMPLETE, with the frame held (R161). -/
theorem run_encodeFrame {s : State} (h : Armed s) {noise : List Byte} (hnoise : ∀ b ∈ noise, b ≠ 0x55) (id cmd : Byte)
    {p : List Byte} (hp : p.length ≤ 60) {rest : List ReadResult}
    (hrx : s.rxStream = SpecText.bytes (noise ++ encodeFrame id cmd p) ++ rest) :
    Host.Core.run core (1 + (noise.length + p.length + 6)) s =
      .next (setEState .filter (attempt (startAttempt (tFlush s)) (noise.length + p.length + 6) .complete
        ((encodeFrame id cmd p).drop 2) rest)) := by
  have hlen := lengthByte_toNat hp
  have hcount : noise.length + p.length + 6 = noise.length + (5 + (cmd :: p).length) := by simp; omega
  rw [hcount, run_frame h hnoise (List.cons_ne_nil cmd p) hlen (by omega) hrx]
  exact congrArg Host.Outcome.next (if_pos (sum8_encodeFrame id cmd p))

/-- Settles O52: the bytes held at the end are the encoded frame's from its id on, and their number and FLEN follow. -/
theorem encodedFrameIsReceived : Obligations.EncodedFrameIsReceived := by
  intro s noise id cmd p rest hrst hp hsched he hflush hlen hnoise hrx
  have hheld : ((encodeFrame id cmd p).drop 2).length = p.length + 4 := by simp
  refine ⟨_, run_encodeFrame ⟨hrst, hp, hsched, he, hflush⟩ hnoise id cmd hlen hrx, rfl, rfl, rfl, lengthByte_toNat hlen,
    ?cnt, ?fb⟩
  case cnt => rw [setEState_cnt, cnt_attempt (by omega), hheld]
  case fb => rw [← hheld, fbTake_congr (setEState_fb _ _) (setEState_resets _ _), fbTake_attempt]

/-- A byte other than the length byte replaced leaves a frame's length byte where it was. -/
theorem set_eq_cons_length (id len : Byte) (tail : List Byte) {k : Nat} (hk : k ≠ 1) (b : Byte) :
    ∃ id' tail', (id :: len :: tail).set k b = id' :: len :: tail' ∧ tail'.length = tail.length :=
  match k with
  | 0 => ⟨b, tail, rfl, rfl⟩
  | 1 => absurd rfl hk
  | k + 2 => ⟨id, tail.set k b, rfl, List.length_set⟩

/-- One changed byte of an encoded frame changes its sum (R161). -/
theorem sum8_set_encodeFrame_ne {id cmd : Byte} {p : List Byte} {k : Nat} (hk : k < p.length + 4) {b : Byte}
    (hb : (encodeFrame id cmd p)[k + 2]? ≠ some b) : sum8 (((encodeFrame id cmd p).drop 2).set k b) ≠ 0xFF := by
  have hlt : k < ((encodeFrame id cmd p).drop 2).length := by simp; omega
  intro hsum
  have hsame := getElem_eq_of_sum8_set hlt (hsum.trans (sum8_encodeFrame id cmd p).symm)
  refine hb ?_
  rw [← hsame, List.getElem_drop, Nat.add_comm k 2]
  exact List.getElem?_eq_getElem _

/-- Settles O53: the changed frame still has its length byte, so that it ends at its own last byte, with another sum. -/
theorem corruptedFrameFailsTheChecksum : Obligations.CorruptedFrameFailsTheChecksum := by
  intro s id cmd p k b rest hrst hp hsched he hflush hlen hk hk1 hb hrx
  obtain ⟨id', tail, hset, htail⟩ := set_eq_cons_length id (lengthByte p) (cmd :: p ++ [csum (frameBody id cmd p)]) hk1 b
  obtain ⟨body, last, rfl⟩ := (List.eq_nil_or_concat' tail).resolve_left (by rintro rfl; simp at htail)
  have hbody : body.length = p.length + 1 := by simpa using htail
  have hlenByte := lengthByte_toNat hlen
  have hsum : sum8 (id' :: lengthByte p :: (body ++ [last])) ≠ 0xFF := hset ▸ sum8_set_encodeFrame_ne hk hb
  have hstream : s.rxStream = SpecText.bytes ([] ++ 0x55 :: 0x55 :: id' :: lengthByte p :: (body ++ [last])) ++ rest := by
    rw [hrx, ← hset]
    rfl
  have hrun := run_frame ⟨hrst, hp, hsched, he, hflush⟩ (List.forall_mem_nil _) (List.ne_nil_of_length_eq_add_one hbody)
    (by omega) (by omega) hstream
  have hcount : p.length + 6 = ([] : List Byte).length + (5 + body.length) := by simp; omega
  rw [hcount]
  exact ⟨_, hrun.trans (congrArg Host.Outcome.next (if_neg hsum)), rfl, rfl, rfl, rfl, rfl, rfl, rfl, rfl⟩

end Sys2Proof.Machine
end

section
/-! A write of REQ (R190 to R192, R252): an instruction's operand check, and whether its request is dropped, refused or
accepted. -/

namespace Sys2Proof.Machine

/-- The range checks R190 makes on a request's operands; a wire command has none. -/
def operandCheck : Instr → Option Code
  | .setId newId => checkNewId newId
  | .readPos id | .move id _ _ | .moveWait id _ _ => checkId id
  | .enable id mode => checkEnable id mode
  | .txRaw id _ n => checkRaw id n
  | .queryId | .start | .stop | .rxFrame => none
  | .moveTimeWrite | .moveTimeWaitWrite | .moveStart | .moveStop | .idWrite | .idRead | .posRead
  | .loadUnloadWrite => none

theorem addressableId_iff (id : Byte) : addressableId id = true ↔ id.toNat ≤ 254 := by
  have hlt := id.isLt
  rw [addressableId, bne_iff_ne, ne_eq, ← BitVec.toNat_inj]
  change ¬ id.toNat = 255 ↔ id.toNat ≤ 254
  omega

theorem checkId_eq_none_iff (id : Byte) : checkId id = none ↔ addressableId id = true := by
  simp [checkId, addressableId]

theorem checkNewId_eq_none_iff (newId : Byte) : checkNewId newId = none ↔ (Instr.setId newId).wellFormed = true := by
  simp [checkNewId, Instr.wellFormed]

theorem checkEnable_eq_none_iff (id mode : Byte) :
    checkEnable id mode = none ↔ (Instr.enable id mode).wellFormed = true := by
  by_cases hid : id = 255#8 <;> simp [checkEnable, Instr.wellFormed, addressableId, hid]

theorem checkRaw_eq_none_iff (id command : Byte) (n : BitVec 6) :
    checkRaw id n = none ↔ (Instr.txRaw id command n).wellFormed = true := by
  by_cases hid : id = 255#8 <;> simp [checkRaw, Instr.wellFormed, addressableId, hid]

/-- The range checks pass exactly the operands R106 admits. -/
theorem operandCheck_eq_none_iff (i : Instr) : operandCheck i = none ↔ i.wellFormed = true := by
  cases i
  case readPos | move | moveWait => exact checkId_eq_none_iff _
  case setId => exact checkNewId_eq_none_iff _
  case enable => exact checkEnable_eq_none_iff _ _
  case txRaw => exact checkRaw_eq_none_iff _ _ _
  all_goals exact iff_of_true rfl rfl

theorem packReq_inj {op op' : BitVec 4} {id id' : Byte} {a a' b b' : Half}
    (h : packReq op id a b = packReq op' id' a' b') : op = op' ∧ id = id' ∧ a = a' ∧ b = b' :=
  ⟨by simpa using congrArg reqOp h, by simpa using congrArg reqId h, by simpa using congrArg reqA h,
    by simpa using congrArg reqB h⟩

/-- A request instruction is packed from four fields (R104 to R106). -/
theorem encode_of_isRequest {i : Instr} (h : SpecText.isRequest i = true) :
    ∃ op id a b, encode i = .request (packReq op id a b) := by
  cases i
  case queryId | setId | readPos | move | moveWait | start | stop | enable | txRaw | rxFrame =>
    exact ⟨_, _, _, _, rfl⟩
  all_goals cases h

section
variable {i : Instr} {op : BitVec 4} {id : Byte} {a b : Half} (h : encode i = .request (packReq op id a b))
include h

/-- The host's write of a request latches the fields of its word (R190, R191). -/
theorem exec_of_encode (s : State) : exec i s = .next (request (operandCheck i) op id a b s) := by
  cases i
  case queryId | setId | readPos | move | moveWait | start | stop | enable | txRaw | rxFrame =>
    obtain ⟨rfl, rfl, rfl, rfl⟩ := packReq_inj (CodeWord.request.inj h)
    rfl
  all_goals cases h

theorem exec_accepted {s : State} (hs : s.estate = .idle) (hwf : i.wellFormed = true) :
    exec i s = .next (SpecText.accepted s op id a b (if op = Op.rxFrame then .rxdir else .txdir)) := by
  rw [exec_of_encode h, (operandCheck_eq_none_iff i).mpr hwf, request, whenIdle_idle _ hs]
  rfl

theorem exec_refused {s : State} (hs : s.estate = .idle) {c : Code} (hc : operandCheck i = some c) :
    exec i s = .next (SpecText.refused s c) := by
  rw [exec_of_encode h, hc, request, whenIdle_idle _ hs]
  rfl

end

theorem packByte_eq_ofNat (v : Byte) : packByte v = BitVec.ofNat 16 v.toNat := by
  rw [← packByte_toNat, BitVec.ofNat_toNat, BitVec.setWidth_eq]

theorem packRaw_eq_ofNat (c : Byte) (n : BitVec 6) : packRaw c n = BitVec.ofNat 16 (256 * n.toNat + c.toNat) := by
  rw [← packRaw_toNat, BitVec.ofNat_toNat, BitVec.setWidth_eq]

/-- Settles O4: operands in these ranges pass their checks. -/
theorem queryOperationsAreAccepted : Obligations.QueryOperationsAreAccepted := by
  intro s hs
  refine ⟨exec_accepted rfl hs rfl, fun newId hid => ?setId, fun id hid => ?readPos⟩
  case setId =>
    rw [← packByte_eq_ofNat]
    exact exec_accepted rfl hs (decide_eq_true hid)
  case readPos => exact exec_accepted rfl hs ((addressableId_iff id).mpr hid)

/-- Settles O5: operands in these ranges pass their checks. -/
theorem motionOperationsAreAccepted : Obligations.MotionOperationsAreAccepted := by
  intro s hs
  refine ⟨fun id position duration hid => ?moves, exec_accepted rfl hs rfl, exec_accepted rfl hs rfl,
    fun id mode hid hmode => ?enable⟩
  case moves =>
    have haddr := (addressableId_iff id).mpr hid
    exact ⟨exec_accepted rfl hs haddr, exec_accepted rfl hs haddr⟩
  case enable =>
    rw [← packByte_eq_ofNat]
    exact exec_accepted rfl hs (Bool.and_eq_true_iff.mpr ⟨(addressableId_iff id).mpr hid, decide_eq_true hmode⟩)

/-- Settles O6: operands in these ranges pass their checks. -/
theorem rawOperationsAreAccepted : Obligations.RawOperationsAreAccepted := by
  intro s hs
  refine ⟨fun id command n hid hn => ?txRaw, exec_accepted rfl hs rfl⟩
  case txRaw =>
    rw [← packRaw_eq_ofNat]
    exact exec_accepted rfl hs (Bool.and_eq_true_iff.mpr ⟨(addressableId_iff id).mpr hid, decide_eq_true hn⟩)

theorem ne_rsvdId {id : Byte} (h : id.toNat ≤ 254) : id ≠ Config.rsvdId := by
  rintro rfl
  exact absurd h (by decide)

/-- Settles O7: each refusal is a branch of the operation's check, the identifier's before the argument's. -/
theorem operandsOutOfRangeAreRefused : Obligations.OperandsOutOfRangeAreRefused := by
  intro s hs
  refine ⟨fun newId hid => exec_refused rfl hs (if_pos hid), exec_refused rfl hs rfl,
    fun position duration => ⟨exec_refused rfl hs rfl, exec_refused rfl hs rfl⟩, fun mode => exec_refused rfl hs rfl,
    fun id mode hid hmode => exec_refused rfl hs ((if_neg (ne_rsvdId hid)).trans (if_pos hmode)),
    fun command n => exec_refused rfl hs rfl,
    fun id command n hid hn => exec_refused rfl hs ((if_neg (ne_rsvdId hid)).trans (if_pos hn))⟩

/-- Settles O9: a dropped or refused request leaves the latch, and only operands in range pass the check. -/
theorem requestInstructionsFrame : Obligations.RequestInstructionsFrame := by
  intro i s t hi h
  obtain ⟨op, id, a, b, hencode⟩ := encode_of_isRequest hi
  obtain rfl := Host.Outcome.next.inj ((exec_of_encode hencode s).symm.trans h)
  obtain ⟨-, e⟩ | ⟨c, -, -, e⟩ | ⟨hs, hcheck, e⟩ :=
    request_cases (check := operandCheck i) (op := op) (id := id) (a := a) (b := b) (s := s) <;> rw [e]
  all_goals refine ⟨⟨rfl, rfl, rfl, rfl, rfl, rfl⟩, ⟨rfl, rfl, rfl, rfl, rfl, rfl, rfl, rfl, rfl⟩,
    fun j => ⟨fbRead_congr rfl rfl j, txplRead_congr rfl rfl j⟩, rfl, rfl, ?_⟩
  · exact fun _ => ⟨rfl, rfl, rfl, rfl, rfl, rfl⟩
  · exact fun _ => ⟨rfl, rfl, rfl, rfl, rfl, rfl⟩
  · exact fun hnot => absurd ⟨hs, (operandCheck_eq_none_iff i).mp hcheck⟩ hnot

/-! The checks of R190 on the word as a number. -/

/-- The code of a decoded word: its operands' check, or why it is no instruction. -/
def decodedCheck : Except DecodeError Instr → Option Code
  | .ok i => operandCheck i
  | .error e => some (decodeErrorCode e)

theorem decodedCheck_unlessReserved (nonzero : Bool) (i : Instr) :
    decodedCheck (unlessReserved nonzero i) = if nonzero then some .badArg else operandCheck i := by
  cases nonzero <;> rfl

theorem checkId_toNat (id : Byte) : checkId id = if id.toNat = 255 then some .badId else none := by
  simp [checkId, ← BitVec.toNat_inj]

theorem checkEnable_toNat (id mode : Byte) :
    checkEnable id mode = if id.toNat = 255 then some .badId else if mode.toNat > 1 then some .badArg else none := by
  simp [checkEnable, ← BitVec.toNat_inj, BitVec.lt_def]

theorem checkRaw_toNat (id : Byte) (n : BitVec 6) :
    checkRaw id n = if id.toNat = 255 then some .badId else if n.toNat > 59 then some .badArg else none := by
  simp [checkRaw, ← BitVec.toNat_inj]

theorem checkNewId_toNat (newId : Byte) : checkNewId newId = if newId.toNat > 253 then some .badId else none := rfl

/-- R190's chain on numbers is the decoder and then the range checks (entry 11). -/
theorem requestCheck_toNat (w : ReqWord) : SpecText.requestCheck w.toNat = decodedCheck (decodeReq w) := by
  unfold decodeReq
  split
  case h_11 =>
    have hout : w.toNat % 16 = 0 ∨ w.toNat % 16 > 10 := by grind [reqOp_toNat]
    exact if_pos hout
  all_goals
    rename_i hop
    rw [decodedCheck_unlessReserved]
    simp only [SpecText.requestCheck, ← reqOp_toNat, ← reqRsv_toNat, ← reqId_toNat, ← reqA_toNat, ← reqB_toNat]
    simp [hop, SpecText.reservedNonzero, operandCheck, checkId_toNat, checkNewId_toNat, checkEnable_toNat, checkRaw_toNat,
      argByte_toNat, argCount_toNat, ← argHigh_toNat, ← argTop_toNat, ← BitVec.toNat_inj, or_assoc]

/-- Only the low 48 bits of what the host writes matter (R61, R104). -/
theorem requestCheck_ofNat (v : Nat) : SpecText.requestCheck v = decodedCheck (decodeReq (BitVec.ofNat 48 v)) := by
  have hop : v % 2 ^ 48 % 16 = v % 16 := by omega
  have hrsv : v % 2 ^ 48 / 16 % 16 = v / 16 % 16 := by omega
  have hid : v % 2 ^ 48 / 256 % 256 = v / 256 % 256 := by omega
  have ha : v % 2 ^ 48 / 65536 % 65536 = v / 65536 % 65536 := by omega
  have hb : v % 2 ^ 48 / 4294967296 % 65536 = v / 4294967296 % 65536 := by omega
  rw [← requestCheck_toNat, BitVec.toNat_ofNat]
  simp only [SpecText.requestCheck, hop, hrsv, hid, ha, hb]

/-- A decoded request is written with the fields of its word. -/
theorem writeReq_of_decode {w : ReqWord} {i : Instr} (h : decodeReq w = .ok i) (s : State) :
    writeReq w s = .next (request (operandCheck i) (reqOp w) (reqId w) (reqA w) (reqB w) s) := by
  obtain ⟨op, id, a, b, hencode⟩ := encode_of_isRequest (isRequest_of_decodeReq h)
  obtain rfl := CodeWord.request.inj ((encode_of_decodeReq h).symm.trans hencode)
  rw [writeReq_ok h, exec_of_encode hencode, reqOp_packReq, reqId_packReq, reqA_packReq, reqB_packReq]

/-- What a write of REQ in IDLE leaves, by the code of its check (R191, R192). -/
def requestAnswer (s : State) (w : ReqWord) : Option Code → State
  | some c => SpecText.refused s c
  | none =>
    SpecText.accepted s (reqOp w) (reqId w) (reqA w) (reqB w) (if reqOp w = Op.rxFrame then .rxdir else .txdir)

theorem writeReq_idle {s : State} (hs : s.estate = .idle) (w : ReqWord) :
    writeReq w s = .next (requestAnswer s w (decodedCheck (decodeReq w))) := by
  cases hd : decodeReq w with
  | error e =>
    simp only [writeReq, hd, whenIdle_idle _ hs]
    rfl
  | ok i =>
    rw [writeReq_of_decode hd, decodedCheck]
    cases operandCheck i with
    | some c =>
      rw [request, whenIdle_idle _ hs]
      rfl
    | none =>
      rw [request, whenIdle_idle _ hs]
      rfl

/-- A write of REQ while busy is dropped, whatever its word (R252). -/
theorem writeReq_busy {s : State} (hs : s.estate ≠ .idle) (w : ReqWord) : writeReq w s = .next (setOverrun s) := by
  obtain ⟨t, ht, hw⟩ := writeReq_written w s
  rw [ht]
  cases hw with
  | dropped => rfl
  | refused _ hidle => exact absurd hidle hs
  | accepted _ _ _ _ _ hidle => exact absurd hidle hs

/-! The fields of the word the host wrote, from the number it wrote. -/

theorem reqOp_ofNat (v : Nat) : reqOp (BitVec.ofNat 48 v) = BitVec.ofNat 4 (v % 16) := by
  apply BitVec.eq_of_toNat_eq
  rw [reqOp_toNat, BitVec.toNat_ofNat, BitVec.toNat_ofNat]
  omega

theorem reqId_ofNat (v : Nat) : reqId (BitVec.ofNat 48 v) = BitVec.ofNat 8 (v / 256) := by
  apply BitVec.eq_of_toNat_eq
  rw [reqId_toNat, BitVec.toNat_ofNat, BitVec.toNat_ofNat]
  omega

theorem reqA_ofNat (v : Nat) : reqA (BitVec.ofNat 48 v) = BitVec.ofNat 16 (v / 65536) := by
  apply BitVec.eq_of_toNat_eq
  rw [reqA_toNat, BitVec.toNat_ofNat, BitVec.toNat_ofNat]
  omega

theorem reqB_ofNat (v : Nat) : reqB (BitVec.ofNat 48 v) = BitVec.ofNat 16 (v / 4294967296) := by
  apply BitVec.eq_of_toNat_eq
  rw [reqB_toNat, BitVec.toNat_ofNat, BitVec.toNat_ofNat]
  omega

theorem ofNat_eq_rxFrame_iff (v : Nat) : BitVec.ofNat 4 (v % 16) = Op.rxFrame ↔ v % 16 = 10 := by
  simp [← BitVec.toNat_inj]

/-- Settles O3: the check on the number is the decoder's and the operands', and the latched fields are the word's. -/
theorem requestWordsAreCheckedInOrder : Obligations.RequestWordsAreCheckedInOrder := by
  intro s n v rest hrst hsched
  have hstep : step s = writeReq (BitVec.ofNat 48 v) { s with schedule := rest } :=
    (stepUnder_host hsched).trans (hostAccess_writeReq (s := { s with schedule := rest }) hrst n v)
  refine ⟨fun hs => ?idle, fun hs => hstep.trans (writeReq_busy (s := { s with schedule := rest }) hs _)⟩
  case idle =>
    rw [hstep, writeReq_idle (s := { s with schedule := rest }) hs, requestCheck_ofNat]
    cases decodedCheck (decodeReq (BitVec.ofNat 48 v)) with
    | some c => rfl
    | none => simp only [requestAnswer, reqOp_ofNat, reqId_ofNat, reqA_ofNat, reqB_ofNat, ofNat_eq_rxFrame_iff]

end Sys2Proof.Machine
end

section
/-! The clamped position (R212), and step FILTER (R195). -/

namespace Sys2Proof.Machine

theorem clampPos_of_lt {a : Half} (h : a.toInt < 125) : clampPos a = 125 := if_pos h

theorem clampPos_of_gt {a : Half} (h : a.toInt > 875) : clampPos a = 875 :=
  (if_neg (by simp; omega)).trans (if_pos h)

theorem clampPos_of_mem {a : Half} (hmin : 125 ≤ a.toInt) (hmax : a.toInt ≤ 875) : clampPos a = a :=
  (if_neg (Int.not_lt.mpr hmin)).trans (if_neg (Int.not_lt.mpr hmax))

theorem clampPos_mem (a : Half) : 125 ≤ (clampPos a).toInt ∧ (clampPos a).toInt ≤ 875 := by
  by_cases hlt : a.toInt < 125
  · rw [clampPos_of_lt hlt]
    decide
  · by_cases hgt : a.toInt > 875
    · rw [clampPos_of_gt hgt]
      decide
    · rw [clampPos_of_mem (Int.not_lt.mp hlt) (Int.not_lt.mp hgt)]
      exact ⟨Int.not_lt.mp hlt, Int.not_lt.mp hgt⟩

/-- Settles O18: the three cases, and the range from them. -/
theorem clampedPosition : Obligations.ClampedPosition :=
  fun a => ⟨clampPos_of_lt, clampPos_of_gt, clampPos_of_mem, clampPos_mem a⟩

theorem zext16_eq_ofNat (b : Byte) : zext16 b = BitVec.ofNat 16 b.toNat := by
  rw [← zext16_toNat, BitVec.ofNat_toNat, BitVec.setWidth_eq]

theorem le16_eq_ofNat (lo hi : Byte) : le16 lo hi = BitVec.ofNat 16 (lo.toNat + 256 * hi.toNat) := by
  rw [← le16_toNat, BitVec.ofNat_toNat, BitVec.setWidth_eq]

/-- `if m then finish_ok(v) else ESTATE <- ARM`, by the condition that `m` computes (R195). -/
theorem matchOrRearm_of_iff {m : Bool} {P : Prop} [Decidable P] (h : m = true ↔ P) (v : Half) (s : State) :
    matchOrRearm m v s = if P then SpecText.finished s v else { s with estate := .arm } :=
  if_congr h rfl rfl

theorem filterStep_queryId {s : State} (h : s.opr = Op.queryId) :
    filterStep s = .next
      (if fbRead s 2 = 14 ∧ fbRead s 0 ≠ 0xFE ∧ s.flen ≠ 3 then
        SpecText.finished s (BitVec.ofNat 16 (fbRead s 0).toNat)
      else { s with estate := .arm }) := by
  rw [filterStep, if_pos h, zext16_eq_ofNat]
  exact congrArg Host.Outcome.next (matchOrRearm_of_iff (by simp [and_assoc]) _ s)

theorem filterStep_readPos {s : State} (h : s.opr = Op.readPos) :
    filterStep s = .next
      (if fbRead s 2 = 28 ∧ s.flen = 5 then
        SpecText.finished s (BitVec.ofNat 16 ((fbRead s 3).toNat + 256 * (fbRead s 4).toNat))
      else { s with estate := .arm }) := by
  rw [filterStep, if_neg (by simp [h]), if_pos h, le16_eq_ofNat]
  exact congrArg Host.Outcome.next (matchOrRearm_of_iff (by simp) _ s)

theorem filterStep_rxFrame {s : State} (h : s.opr = Op.rxFrame) :
    filterStep s = .next (SpecText.finished s (BitVec.ofNat 16 ((fbRead s 0).toNat + 256 * (fbRead s 2).toNat))) := by
  rw [filterStep, if_neg (by simp [h]), if_neg (by simp [h]), if_pos h, ← le16_eq_ofNat]
  rfl

theorem sbpfStep_filter {p : FlushPolicy} {s : State} (hrst : s.rst = false) (hp : s.pstate ≠ .reserved)
    (he : s.estate = .filter) : sbpfStep p s = filterStep s := by
  simp [sbpfStep_engineStep hrst hp, engineStep, he]

/-- Settles O28, by the operation in flight. -/
theorem filterStepMatchesOrRearms : Obligations.FilterStep := by
  intro p s hrst hp he
  rw [sbpfStep_filter hrst hp he]
  exact ⟨filterStep_queryId, filterStep_readPos, filterStep_rxFrame⟩

end Sys2Proof.Machine
end

section
/-! The frame a request puts on the bus (R136, R193, R198), and which identifiers it is sent to (R95, R193). -/

namespace Sys2Proof.Machine

/-- What `encode` makes a request frame of (R132). -/
structure Frame where
  id : Byte
  cmd : Byte
  payload : List Byte

/-- The payload of a move to a position, in a duration (R97, R136; entry 16). -/
def moveBytes (position duration : Half) : List Byte :=
  [SpecText.lo (SpecText.clamped position), SpecText.hi (SpecText.clamped position), SpecText.lo duration,
    SpecText.hi duration]

theorem movePayload_eq_moveBytes (s : State) : movePayload s = moveBytes s.ra s.rb := movePayload_eq s

/-- The frame of each request that sends one (R136); RX_FRAME sends none. TX_RAW takes its payload from TXPL. -/
def requestFrame (s : State) : Instr → Option Frame
  | .queryId => some ⟨0xFE, 14, []⟩
  | .setId newId => some ⟨0xFE, 13, [newId]⟩
  | .readPos id => some ⟨id, 28, []⟩
  | .move id position duration => some ⟨id, 1, moveBytes position duration⟩
  | .moveWait id position duration => some ⟨id, 7, moveBytes position duration⟩
  | .start => some ⟨0xFE, 11, []⟩
  | .stop => some ⟨0xFE, 12, []⟩
  | .enable id mode => some ⟨id, 31, [mode]⟩
  | .txRaw id command n => some ⟨id, command, txplTake n.toNat s⟩
  | .rxFrame => none
  | .moveTimeWrite | .moveTimeWaitWrite | .moveStart | .moveStop | .idWrite | .idRead | .posRead
  | .loadUnloadWrite => none

/-- The request in flight is `i`: the latch holds the fields of its word (R25). -/
def Latched (i : Instr) (s : State) : Prop := encode i = .request (packReq s.opr s.rid s.ra s.rb)

section
variable {i : Instr} {s : State} (hl : Latched i s)
include hl

/-- TXSEND sends the frame of the request in flight (R136, R138). -/
theorem txsendStep_of_latched (hwf : i.wellFormed = true) {f : Frame} (hf : requestFrame s i = some f) :
    txsendStep s = .next (sendRequest f.id f.cmd f.payload s) := by
  have hcommand {op : BitVec 4} {c : Byte} {j : Instr} (hop : op = s.opr) (hc : commandOf op = some c)
      (hj : decodeCmd c = .ok j) : txsendStep s = exec j s := txsendStep_command (hop ▸ hc) hj
  cases i <;> cases hf
  all_goals obtain ⟨hop, hrid, hra, hrb⟩ := packReq_inj (CodeWord.request.inj hl)
  case queryId | start | stop => exact hcommand hop rfl rfl
  case readPos =>
    subst hrid
    exact hcommand hop rfl rfl
  case setId =>
    rw [hcommand hop rfl rfl, exec, execIdWrite, bytePayload, ← hra, argByte_packByte]
  case enable =>
    subst hrid
    rw [hcommand hop rfl rfl, exec, execLoadUnloadWrite, bytePayload, ← hra, argByte_packByte]
  case move | moveWait =>
    subst hrid hra hrb
    rw [hcommand hop rfl rfl, ← movePayload_eq_moveBytes]
    rfl
  case txRaw id command n =>
    obtain ⟨-, hn⟩ := Bool.and_eq_true_iff.mp hwf
    have hfits : ¬ n.toNat > Config.maxTxPayload := Nat.not_lt.mpr (of_decide_eq_true hn)
    rw [txsendStep, if_pos hop.symm, sendRaw, ← hra, argCount_packRaw, argByte_packRaw, if_neg hfits, ← hrid]

/-- QUERY_ID, SET_ID, START and STOP address every device (R193). -/
theorem broadcast_of_latched {f : Frame} (hf : requestFrame s i = some f)
    (hop : s.opr = 1 ∨ s.opr = 2 ∨ s.opr = 6 ∨ s.opr = 7) : f.id = 0xFE := by
  cases i <;> cases hf
  case queryId | setId | start | stop => rfl
  all_goals
    obtain ⟨hlatched, -⟩ := packReq_inj (CodeWord.request.inj hl)
    rw [← hlatched] at hop
    exact absurd hop (by decide)

/-- SET_ID assigns an identifier for a single device (R193). -/
theorem setId_of_latched (hwf : i.wellFormed = true) {f : Frame} (hf : requestFrame s i = some f) (hop : s.opr = 2) :
    ∃ newId : Byte, f = ⟨0xFE, 13, [newId]⟩ ∧ newId ≤ 253 := by
  cases i <;> cases hf
  case setId newId => exact ⟨newId, rfl, of_decide_eq_true hwf⟩
  all_goals
    obtain ⟨hlatched, -⟩ := packReq_inj (CodeWord.request.inj hl)
    rw [← hlatched] at hop
    exact absurd hop (by decide)

/-- Every request but RX_FRAME sends a frame (R198). -/
theorem requestFrame_of_latched (hop : s.opr ≠ Op.rxFrame) : ∃ f, requestFrame s i = some f := by
  cases i
  case rxFrame =>
    obtain ⟨hlatched, -⟩ := packReq_inj (CodeWord.request.inj hl)
    exact absurd hlatched.symm hop
  case queryId | setId | readPos | move | moveWait | start | stop | enable | txRaw => exact ⟨_, rfl⟩
  all_goals cases hl

end

/-- Operands in range name no reserved destination (R193, R95). -/
theorem requestFrame_id_ne {i : Instr} {s : State} {f : Frame} (hwf : i.wellFormed = true)
    (hf : requestFrame s i = some f) : f.id ≠ 0xFF := by
  cases i <;> cases hf
  case queryId | setId | start | stop => exact (by decide : (0xFE : Byte) ≠ 0xFF)
  case readPos | move | moveWait => exact bne_iff_ne.mp hwf
  case enable | txRaw => exact bne_iff_ne.mp (Bool.and_eq_true_iff.mp hwf).1

/-- A step that sends is a TXSEND step, from the state past its turn. -/
theorem txsendStep_of_send {p : FlushPolicy} {s t : State} {f : List Byte} (h : stepUnder p s = .next t)
    (hlog : t.busLog = .send f :: s.busLog) :
    s.estate = .txsend ∧ ∃ rest, txsendStep { s with schedule := rest } = .next t := by
  have hs : s.estate = .txsend := callFits_of_busLog h hlog
  have hcalled : t.busLog ≠ s.busLog := fun hkept => List.cons_ne_self _ _ (hlog.symm.trans hkept)
  refine ⟨hs, ?_⟩
  obtain ⟨rest, hsbpf | ⟨a, -, hhost⟩ | ⟨level, rfl⟩⟩ := stepUnder_turn h
  · refine ⟨rest, ?_⟩
    obtain rfl | ⟨he, -⟩ | ⟨-, hsend⟩ | ⟨he, -⟩ | ⟨he, -⟩ | ⟨he, -⟩ | ⟨he, -⟩ := sbpfStep_cases hsbpf
    · exact absurd rfl hcalled
    · cases hs.symm.trans he
    · exact hsend
    all_goals cases hs.symm.trans he
  · exact absurd (busLog_of_hostTurn hhost) hcalled
  · exact absurd (driveReset_busLog level _) hcalled

/-- A step that sends from the invariant sends the frame of the legal request in flight. -/
theorem requestFrame_of_send {p : FlushPolicy} {s t : State} {f : List Byte} (hinv : Inv s) (h : stepUnder p s = .next t)
    (hlog : t.busLog = .send f :: s.busLog) :
    ∃ i fr, Latched i s ∧ i.wellFormed = true ∧ requestFrame s i = some fr ∧
      f = encodeFrame fr.id fr.cmd fr.payload := by
  obtain ⟨hs, rest, hsend⟩ := txsendStep_of_send h hlog
  obtain ⟨i, hi, hwf⟩ := hinv.latched (by simp [hs])
  have hl : Latched i s := encode_of_decodeReq hi
  obtain ⟨fr, hfr⟩ := requestFrame_of_latched hl (hinv.sending (.inr hs))
  have hsent := txsendStep_of_latched (s := { s with schedule := rest }) hl hwf hfr
  obtain rfl := Host.Outcome.next.inj (hsent.symm.trans hsend)
  exact ⟨i, fr, hl, hwf, hfr, BusCall.send.inj (List.cons.inj hlog).1.symm⟩

/-- Settles O50: the frame sent is the one of the legal request in flight. -/
theorem identifierDiscipline : Obligations.IdentifierDiscipline := by
  intro p s t f hinv h hlog
  obtain ⟨i, fr, hl, hwf, hfr, rfl⟩ := requestFrame_of_send hinv h hlog
  refine ⟨?reserved, fun hop => ?broadcast, fun hop => ?assigned⟩
  case reserved => exact fun hid => requestFrame_id_ne hwf hfr (Option.some.inj hid)
  case broadcast => exact congrArg some (broadcast_of_latched hl hfr hop)
  case assigned =>
    obtain ⟨newId, rfl, hnew⟩ := setId_of_latched hl hwf hfr hop
    have hne {id : Byte} (hid : ¬ id ≤ 253) : some newId ≠ some id := fun e => hid (Option.some.inj e ▸ hnew)
    exact ⟨rfl, hne (by decide), hne (by decide)⟩

end Sys2Proof.Machine
end

section
/-! Whole operations (R198): the steps that transmit, and the attempts of an operation that awaits a frame. -/

namespace Sys2Proof.Machine

theorem requestFrame_congr {s t : State} (h : t.txpl = s.txpl) (hr : t.resets = s.resets) (i : Instr) :
    requestFrame t i = requestFrame s i := by
  cases i
  case txRaw id command n => exact congrArg (fun p => some (Frame.mk id command p)) (txplTake_congr h hr n.toNat)
  all_goals rfl

/-- SBPF has every turn to come, none of them lost to reset or a reserved PSTATE, and is in this engine state. -/
structure InStep (e : EState) (s : State) : Prop where
  released : s.rst = false
  legal : s.pstate ≠ .reserved
  unlisted : s.schedule = []
  engine : s.estate = e

theorem inStep_accepted {s : State} (h : InStep .idle s) (op : BitVec 4) (id : Byte) (a b : Half) (e : EState) :
    InStep e (SpecText.accepted s op id a b e) := ⟨h.released, h.legal, h.unlisted, rfl⟩

theorem step_txdir {s : State} (h : InStep .txdir s) : step s = .next (txdirStep s) :=
  (step_eq_sbpfStep h.unlisted).trans (sbpfStep_txdir h.released h.legal h.engine)

theorem step_txsend {s : State} (h : InStep .txsend s) : step s = txsendStep s :=
  (step_eq_sbpfStep h.unlisted).trans (sbpfStep_txsend h.released h.legal h.engine)

theorem step_rxdir {s : State} (h : InStep .rxdir s) : step s = .next (rxdirStep s) :=
  (step_eq_sbpfStep h.unlisted).trans (sbpfStep_rxdir h.released h.legal h.engine)

theorem step_filter {s : State} (h : InStep .filter s) : step s = filterStep s :=
  (step_eq_sbpfStep h.unlisted).trans (sbpfStep_filter h.released h.legal h.engine)

/-- An accepted request that sends takes the steps TXDIR, TXSEND and RXDIR (R198). -/
theorem run_transmit {i : Instr} {s : State} (h : InStep .txdir s) (hl : Latched i s) (hwf : i.wellFormed = true)
    {f : Frame} (hf : requestFrame s i = some f) :
    Host.Core.run core 3 s = .next (rxdirStep (sendRequest f.id f.cmd f.payload (txdirStep s))) := by
  have hsending : InStep .txsend (txdirStep s) := ⟨h.released, h.legal, h.unlisted, rfl⟩
  have hframe : requestFrame (txdirStep s) i = some f := (requestFrame_congr rfl rfl i).trans hf
  have hsend : step (txdirStep s) = .next (sendRequest f.id f.cmd f.payload (txdirStep s)) :=
    (step_txsend hsending).trans (txsendStep_of_latched (s := txdirStep s) hl hwf hframe)
  have hsent : InStep .rxdir (sendRequest f.id f.cmd f.payload (txdirStep s)) :=
    ⟨h.released, h.legal, h.unlisted, rfl⟩
  rw [run_succ_of_step (step_txdir h), run_succ_of_step hsend]
  exact (run_one _).trans (step_rxdir hsent)

theorem rxdirStep_completes {s : State} (h : awaitsFrame s.opr = false) :
    rxdirStep s = finishOk 0 (turnLine .receive s) := by
  simp [rxdirStep, h]

theorem rxdirStep_arms {s : State} (h : awaitsFrame s.opr = true) :
    rxdirStep s = setEState .arm (turnLine .receive s) := by
  simp [rxdirStep, h]

/-- The operations R198 lists in its first row send a frame and await none. -/
theorem frameOf_sends {i : Instr} {s : State} {f : List Byte} (hf : SpecText.frameOf s i = some f) :
    (∃ fr, requestFrame s i = some fr ∧ f = encodeFrame fr.id fr.cmd fr.payload) ∧
    ∃ op id a b, encode i = .request (packReq op id a b) ∧ awaitsFrame op = false := by
  cases i <;> cases hf
  all_goals exact ⟨⟨_, rfl, rfl⟩, _, _, _, _, rfl, rfl⟩

/-- Settles O51: acceptance goes to TXDIR, and the RXDIR step completes the operation. -/
theorem noResponseOperationsCompleteInThreeSteps : Obligations.NoResponseOperationsCompleteInThreeSteps := by
  intro i s f hwf hf hs hrst hp hsched
  obtain ⟨⟨fr, hfr, rfl⟩, op, id, a, b, hencode, hop⟩ := frameOf_sends hf
  have hacc := exec_accepted hencode hs hwf
  rw [if_neg (by rintro rfl; cases hop)] at hacc
  have hrun := run_transmit (inStep_accepted ⟨hrst, hp, hsched, hs⟩ op id a b .txdir) hencode hwf
    ((requestFrame_congr rfl rfl i).trans hfr)
  rw [rxdirStep_completes hop] at hrun
  exact ⟨_, _, hacc, hrun, rfl, rfl, rfl, rfl, rfl, rfl, rfl, rfl, rfl, rfl⟩

/-! An attempt that receives a frame, and the FILTER step after it (R195). -/

/-- The state in FILTER after the attempt armed in `s` has received a frame: the frame is held, `rest` is unread. -/
def received (s : State) (id cmd : Byte) (p : List Byte) (rest : List ReadResult) : State :=
  setEState .filter (attempt (startAttempt (tFlush s)) (p.length + 6) .complete ((encodeFrame id cmd p).drop 2) rest)

section
variable (s : State) (id cmd : Byte) (p : List Byte) (rest : List ReadResult)

theorem fbTake_received : fbTake (p.length + 4) (received s id cmd p rest) = (encodeFrame id cmd p).drop 2 := by
  have hheld : ((encodeFrame id cmd p).drop 2).length = p.length + 4 := by simp
  rw [← hheld]
  exact (fbTake_congr (setEState_fb _ _) (setEState_resets _ _) _).trans (fbTake_attempt _ _ _ _ _)

/-- A byte of FB within the frame received is that byte of the frame. -/
theorem fbRead_received {k : Nat} (hk : k < p.length + 4) :
    ((encodeFrame id cmd p).drop 2)[k]? = some (fbRead (received s id cmd p rest) k) := by
  rw [← fbTake_received s id cmd p rest]
  simp [fbTake, hk]

@[simp] theorem fbRead_received_id : fbRead (received s id cmd p rest) 0 = id :=
  (Option.some.inj (fbRead_received s id cmd p rest (Nat.zero_lt_succ _))).symm

@[simp] theorem fbRead_received_cmd : fbRead (received s id cmd p rest) 2 = cmd :=
  (Option.some.inj (fbRead_received s id cmd p rest (k := 2) (by omega))).symm

/-- Receiving calls the flush and the reads alone. -/
@[simp] theorem send_mem_busLog_received (f : List Byte) :
    .send f ∈ (received s id cmd p rest).busLog ↔ .send f ∈ s.busLog := by
  simp [received, attempt, List.mem_replicate]

end

section
variable {s : State} (h : Armed s) {id cmd : Byte} {p : List Byte} {rest : List ReadResult}
include h

theorem inStep_received : InStep .filter (received s id cmd p rest) := ⟨h.released, nofun, h.unlisted, rfl⟩

/-- From ARM through a frame and its FILTER step. -/
theorem run_filter (hp : p.length ≤ 60) (hrx : s.rxStream = SpecText.bytes (encodeFrame id cmd p) ++ rest) {t : State}
    (hfilter : filterStep (received s id cmd p rest) = .next t) : Host.Core.run core (p.length + 8) s = .next t := by
  have hrun := run_encodeFrame h (List.forall_mem_nil _) id cmd hp hrx
  rw [List.length_nil, Nat.zero_add] at hrun
  have hcount : p.length + 8 = 1 + (p.length + 6) + 1 := by omega
  rw [hcount, run_add_of_run hrun]
  exact (run_one _).trans ((step_filter (inStep_received h)).trans hfilter)

/-- After a frame that does not match, the next attempt is armed: its flush too leaves the stream. -/
theorem armed_rearm {draws : List Nat} (hdraws : s.flushDraws.tail = 0 :: draws) :
    Armed (setEState .arm (received s id cmd p rest)) :=
  ⟨h.released, nofun, h.unlisted, rfl, flushAmount_of_draws hdraws⟩

end

/-! FILTER on the frame received: the echo of a query has no payload and does not match, a reply does (R200, R202, R210). -/

section
variable {s : State} (id : Byte) (rest : List ReadResult)

theorem filter_queryId_echo (hop : s.opr = Op.queryId) :
    filterStep (received s id 14 [] rest) = .next (setEState .arm (received s id 14 [] rest)) := by
  rw [filterStep_queryId (s := received s id 14 [] rest) hop, if_neg fun ⟨_, _, hlen⟩ => hlen rfl]
  rfl

theorem filter_queryId_reply (hop : s.opr = Op.queryId) {id : Byte} (hid : id ≠ 0xFE) {p : List Byte}
    (hmin : 1 ≤ p.length) (hmax : p.length ≤ 60) :
    filterStep (received s id 14 p rest) =
      .next (SpecText.finished (received s id 14 p rest) (BitVec.ofNat 16 id.toNat)) := by
  have hlen : (received s id 14 p rest).flen ≠ 3 := fun e => by
    have he : (lengthByte p).toNat = 3 := congrArg BitVec.toNat e
    rw [lengthByte_toNat hmax] at he
    omega
  rw [filterStep_queryId (s := received s id 14 p rest) hop, fbRead_received_id, fbRead_received_cmd,
    if_pos ⟨rfl, hid, hlen⟩]

theorem filter_readPos_echo (hop : s.opr = Op.readPos) :
    filterStep (received s id 28 [] rest) = .next (setEState .arm (received s id 28 [] rest)) := by
  have hlen : (received s id 28 [] rest).flen ≠ 5 := show (3 : Byte) ≠ 5 by decide
  rw [filterStep_readPos (s := received s id 28 [] rest) hop, if_neg fun ⟨_, hmatch⟩ => hlen hmatch]
  rfl

theorem filter_readPos_reply (hop : s.opr = Op.readPos) (lo hi : Byte) :
    filterStep (received s id 28 [lo, hi] rest) =
      .next (SpecText.finished (received s id 28 [lo, hi] rest) (BitVec.ofNat 16 (lo.toNat + 256 * hi.toNat))) := by
  have hlo : fbRead (received s id 28 [lo, hi] rest) 3 = lo :=
    (Option.some.inj (fbRead_received s id 28 [lo, hi] rest (k := 3) (by simp))).symm
  have hhi : fbRead (received s id 28 [lo, hi] rest) 4 = hi :=
    (Option.some.inj (fbRead_received s id 28 [lo, hi] rest (k := 4) (by simp))).symm
  rw [filterStep_readPos (s := received s id 28 [lo, hi] rest) hop, if_pos ⟨fbRead_received_cmd .., rfl⟩, hlo, hhi]

theorem filter_rxFrame (hop : s.opr = Op.rxFrame) (cmd : Byte) (p : List Byte) :
    filterStep (received s id cmd p rest) =
      .next (SpecText.finished (received s id cmd p rest) (BitVec.ofNat 16 (id.toNat + 256 * cmd.toNat))) := by
  rw [filterStep_rxFrame (s := received s id cmd p rest) hop, fbRead_received_id, fbRead_received_cmd]

end

/-- Settles O56: the RXDIR step arms the one attempt, and FILTER takes any frame. -/
theorem rxFrameReturnsAnyFrame : Obligations.RxFrameReturnsAnyFrame := by
  intro s id cmd p draws rest hlen hs hrst hp hsched hdraws hrx
  have hacc : exec .rxFrame s = .next (SpecText.accepted s 10 0 0 0 .rxdir) := exec_accepted rfl hs rfl
  have hrxdir := step_rxdir (inStep_accepted ⟨hrst, hp, hsched, hs⟩ 10 0 0 0 .rxdir)
  rw [rxdirStep_arms rfl] at hrxdir
  set u := setEState .arm (turnLine .receive (SpecText.accepted s 10 0 0 0 .rxdir))
  have hu : Armed u := ⟨hrst, hp, hsched, rfl, flushAmount_of_draws hdraws⟩
  have hrun := run_filter hu hlen hrx (filter_rxFrame id rest rfl cmd p)
  refine ⟨_, _, hacc, (run_succ_of_step hrxdir _).trans hrun, rfl, rfl, rfl, rfl, rfl, ?fb, rfl, ?sends⟩
  case fb => exact fbTake_received u id cmd p rest
  case sends =>
    intro f hf
    have hu : .send f ∈ BusCall.setDir .receive :: s.busLog := (send_mem_busLog_received u id cmd p rest f).mp hf
    simpa using hu

/-! QUERY_ID and READ_POS: the query, its echo, which is discarded, and the reply (R194, R195, R200, R202). -/

/-- After the steps that transmit a query with no payload: an attempt is armed. -/
def queried (s : State) (op : BitVec 4) (id dest cmd : Byte) : State :=
  setEState .arm (turnLine .receive (sendRequest dest cmd [] (txdirStep (SpecText.accepted s op id 0 0 .txdir))))

section
variable {s : State} (h : InStep .idle s) {op : BitVec 4} {id dest cmd : Byte}
include h

theorem run_queried {i : Instr} (hencode : encode i = .request (packReq op id 0 0)) (hwf : i.wellFormed = true)
    (hframe : requestFrame s i = some ⟨dest, cmd, []⟩) (hawait : awaitsFrame op = true) :
    Host.Core.run core 3 (SpecText.accepted s op id 0 0 .txdir) = .next (queried s op id dest cmd) := by
  have hrun := run_transmit (inStep_accepted h op id 0 0 .txdir) hencode hwf
    ((requestFrame_congr rfl rfl i).trans hframe)
  rwa [rxdirStep_arms hawait] at hrun

theorem armed_queried {draws : List Nat} (hdraws : s.flushDraws = 0 :: draws) : Armed (queried s op id dest cmd) :=
  ⟨h.released, h.legal, h.unlisted, rfl, flushAmount_of_draws hdraws⟩

end

/-- The attempt armed after an echo without a payload was received and discarded. -/
def echoed (s : State) (dest cmd : Byte) (rest : List ReadResult) : State := setEState .arm (received s dest cmd [] rest)

/-- From ARM through an echo that does not match and the frame after it, which decides (R195). -/
theorem run_echo_reply {s t : State} (h : Armed s) {draws : List Nat} (hdraws : s.flushDraws.tail = 0 :: draws)
    {dest cmd from_ : Byte} {p : List Byte} (hp : p.length ≤ 60) {rest rest' : List ReadResult}
    (hrest : rest' = SpecText.bytes (encodeFrame from_ cmd p) ++ rest)
    (hrx : s.rxStream = SpecText.bytes (encodeFrame dest cmd []) ++ rest')
    (hecho : filterStep (received s dest cmd [] rest') = .next (echoed s dest cmd rest'))
    (hreply : filterStep (received (echoed s dest cmd rest') from_ cmd p rest) = .next t) :
    Host.Core.run core (8 + (p.length + 8)) s = .next t :=
  (run_add_of_run (run_filter h (Nat.zero_le _) hrx hecho) _).trans (run_filter (armed_rearm h hdraws) hp hrest hreply)

theorem bytes_append (p q : List Byte) (rest : List ReadResult) :
    SpecText.bytes (p ++ q) ++ rest = SpecText.bytes p ++ (SpecText.bytes q ++ rest) := by
  simp [SpecText.bytes]

/-- The query is among the calls made. -/
theorem query_mem_busLog (s : State) (op : BitVec 4) (id dest cmd : Byte) (rest : List ReadResult) :
    .send (encodeFrame dest cmd []) ∈ (echoed (queried s op id dest cmd) dest cmd rest).busLog := by
  simp [echoed, queried]

/-- Settles O54: READ_POS matches a payload of two bytes, which the reply has and the echo has not. -/
theorem readPosReturnsTheRepliedPosition : Obligations.ReadPosReturnsTheRepliedPosition := by
  intro s id from_ lo hi draws rest hid hs hrst hp hsched hdraws hrx
  have hidle : InStep .idle s := ⟨hrst, hp, hsched, hs⟩
  have hwf : (Instr.readPos id).wellFormed = true := (addressableId_iff id).mpr hid
  have hquery := run_queried hidle (i := .readPos id) rfl hwf rfl rfl
  have harmed : Armed (queried s 3 id id 28) := armed_queried hidle hdraws
  have hreply := run_echo_reply harmed (congrArg List.tail hdraws) (by simp) rfl
    (hrx.trans (bytes_append ..)) (filter_readPos_echo id _ rfl) (filter_readPos_reply from_ rest rfl lo hi)
  exact ⟨_, _, exec_accepted rfl hs hwf, (run_add_of_run hquery _).trans hreply, rfl, rfl, rfl, rfl, rfl, rfl,
    (send_mem_busLog_received _ from_ 28 [lo, hi] rest _).mpr (query_mem_busLog ..)⟩

/-- Settles O55: QUERY_ID matches a frame with a payload, which the reply has and the echo has not. -/
theorem queryIdReturnsTheRepliersIdentifier : Obligations.QueryIdReturnsTheRepliersIdentifier := by
  intro s from_ p draws rest hfrom hmin hmax hs hrst hp hsched hdraws hrx
  have hidle : InStep .idle s := ⟨hrst, hp, hsched, hs⟩
  have hquery := run_queried hidle (i := .queryId) rfl rfl rfl rfl
  have harmed : Armed (queried s 1 0 0xFE 14) := armed_queried hidle hdraws
  have hreply := run_echo_reply harmed (congrArg List.tail hdraws) hmax rfl
    (hrx.trans (bytes_append ..)) (filter_queryId_echo 0xFE _ rfl) (filter_queryId_reply rest rfl hfrom hmin hmax)
  have hcount : p.length + 19 = 3 + (8 + (p.length + 8)) := by omega
  rw [hcount]
  exact ⟨_, _, exec_accepted rfl hs rfl, (run_add_of_run hquery _).trans hreply, rfl, rfl, rfl, rfl, rfl, rfl,
    (send_mem_busLog_received _ from_ 14 p rest _).mpr (query_mem_busLog ..)⟩

end Sys2Proof.Machine
end

section
/-! The host's accesses (R250 to R256): reads of the register space (R60, R64), writes of TXPL, and writes of REQ that decode or
are dropped. -/

namespace Sys2Proof.Machine

/-! The value at an index (R60). -/

/-- STATUS as the number its bits make (R110, R111). -/
theorem zext16_statusWord (s : State) :
    zext16 (statusWord s) =
      BitVec.ofNat 16
        ((if s.estate = .idle then 0 else 1) + 2 * s.done.toNat + 4 * s.fail.toNat + 8 * s.ovr.toNat +
          16 * s.code.bits.toNat) := by
  have hbusy : (busy s).toNat = if s.estate = .idle then 0 else 1 := by
    split <;> simp [busy, *]
  rw [zext16_eq_ofNat, statusWord_toNat, hbusy]

/-- While an operation runs DONE, FAIL and CODE are 0 (R34), so that STATUS is BUSY and OVR alone (R253). -/
theorem statusWord_of_busy {s : State} (hinv : Inv s) (hs : s.estate ≠ .idle) :
    statusWord s = if s.ovr then 0x09 else 0x01 := by
  obtain ⟨hdone, hfail, hcode, -⟩ := hinv.busyStatus hs
  have hbusy : busy s = true := by simp [busy, hs]
  rw [statusWord, hdone, hfail, hcode, hbusy]
  cases s.ovr <;> rfl

section
variable {idx : BitVec 8} (s : State)

theorem hostValue_status (h : idx.toNat = 0) : hostValue s idx = zext16 (statusWord s) := if_pos h

theorem hostValue_result (h : idx.toNat = 1) : hostValue s idx = s.result := by simp [hostValue, h]

theorem hostValue_fb (hmin : 128 ≤ idx.toNat) (hmax : idx.toNat ≤ 191) :
    hostValue s idx = zext16 (fbRead s (idx.toNat - 128)) := by
  rw [hostValue, if_neg (by omega), if_neg (by omega), if_pos ⟨hmin, Nat.lt_succ_of_le hmax⟩]

/-- Write-only registers and reserved indices (R64, R256). -/
theorem hostValue_unreadable (hmin : 1 < idx.toNat) (h : idx.toNat < 128 ∨ 191 < idx.toNat) : hostValue s idx = 0 := by
  rw [hostValue, if_neg (by omega), if_neg (by omega), if_neg (by simp only [Config.fbCap_eq]; omega)]

end

/-! Writes of the register space, and the host's turns out of reset. -/

section
variable {s : State} {idx : BitVec 8}

/-- In IDLE TXPL takes the low byte of what the host writes (R61, R254). -/
theorem hostWrite_payload (hmin : 64 ≤ idx.toNat) (hmax : idx.toNat ≤ 122) (hs : s.estate = .idle) (v : Nat) :
    hostWrite idx v s = .next (txplWrite (idx.toNat - 64) (BitVec.ofNat 8 v) s) := by
  rw [hostWrite, if_neg (by omega), if_pos ⟨hmin, Nat.lt_succ_of_le hmax⟩, if_pos hs]

/-- Any other write that is none of REQ: TXPL while busy, a read-only register or a reserved index (R64, R254, R256). -/
theorem hostWrite_ignored (hreq : idx.toNat ≠ 2) (h : ¬ (64 ≤ idx.toNat ∧ idx.toNat ≤ 122 ∧ s.estate = .idle)) (v : Nat) :
    hostWrite idx v s = .next s := by
  rw [hostWrite, if_neg hreq]
  split
  · next hidx =>
    have hbusy : s.estate ≠ .idle := fun hs => h ⟨hidx.1, Nat.le_of_lt_succ hidx.2, hs⟩
    rw [if_neg hbusy]
  · rfl

variable {n : Nat} {rest : List Turn} (hrst : s.rst = false)
include hrst

/-- A read's width selects nothing (R61). -/
theorem step_hostRead (hsched : s.schedule = .host (.read idx n) :: rest) :
    step s = .next { s with schedule := rest, rdata := hostValue s idx } := by
  refine (stepUnder_host hsched).trans ?_
  rw [hostAccess, if_neg (by simp [hrst])]
  rfl

theorem step_hostWrite {v : Nat} (hsched : s.schedule = .host (.write idx n v) :: rest) :
    step s = hostWrite idx v { s with schedule := rest } := by
  refine (stepUnder_host hsched).trans ?_
  rw [hostAccess, if_neg (by simp [hrst])]

end

/-- Settles O31, by the value of each index, and by what the invariant says of STATUS while busy. -/
theorem hostReadValues : Obligations.HostReadValues := by
  refine ⟨fun s idx n rest hrst hsched => ?value, fun s hinv hs => statusWord_of_busy hinv hs⟩
  case value =>
    rw [step_hostRead hrst hsched]
    split
    · next hstatus => rw [hostValue_status s hstatus, zext16_statusWord]
    · split
      · next hresult => rw [hostValue_result s hresult]
      · split
        · next hfb => rw [hostValue_fb s hfb.1 hfb.2, zext16_eq_ofNat]
        · rw [hostValue_unreadable s (by omega) (by omega)]

/-- Settles O8: a request instruction is a write of REQ, which is dropped when not in IDLE. -/
theorem requestsWhileBusyAreDropped : Obligations.RequestsWhileBusyAreDropped := by
  intro i s hi hs
  obtain ⟨op, id, a, b, hencode⟩ := encode_of_isRequest hi
  rw [exec_of_encode hencode]
  exact congrArg Host.Outcome.next (whenIdle_busy _ hs)

/-- Settles O12: a write at 0x02 is a write of REQ, which runs the instruction its word decodes to. -/
theorem stepRunsTheRequestWritten : Obligations.StepRunsTheRequestWritten := by
  intro s n v rest i hrst hsched hi
  calc step s = hostAccess (.write 0x02 n v) { s with schedule := rest } := stepUnder_host hsched
    _ = writeReq (BitVec.ofNat 48 v) { s with schedule := rest } := hostAccess_writeReq (s := { s with schedule := rest }) hrst n v
    _ = exec i { s with schedule := rest } := writeReq_ok hi _

/-- Settles O32: a write reaches TXPL or is ignored, and indices outside the readable registers read 0. -/
theorem hostWriteEffects : Obligations.HostWriteEffects := by
  refine ⟨fun s idx n v rest hrst hsched hreq => ?write, fun s idx n rest hrst hsched hmin hidx => ?read⟩
  case write =>
    rw [step_hostWrite hrst hsched]
    split_ifs with h
    · obtain ⟨hmin, hmax, hs⟩ := h
      exact hostWrite_payload (s := { s with schedule := rest }) hmin hmax hs v
    · exact hostWrite_ignored (s := { s with schedule := rest }) hreq h v
  case read => rw [step_hostRead hrst hsched, hostValue_unreadable s hmin hidx]

end Sys2Proof.Machine
end

section
/-! The `done` output (R74, R191, R272), and what SBPF's steps do not depend on (R69, R252, R273). -/

namespace Sys2Proof.Machine

/-! DONE: an operation ends in IDLE with its outcome, and only an accepted request or a reset takes that back. -/

/-- The outcome an ended operation or a refused request leaves (R192, R196, R197): success, or a code and the sentinel. -/
def OutcomeHeld (t : State) : Prop :=
  t.estate = .idle ∧
    ((t.fail = false ∧ t.code = .ok) ∨ (t.fail = true ∧ t.code ≠ .ok ∧ t.result = Config.failSentinel))

theorem outcomeHeld_finishOk (v : Half) (s : State) : OutcomeHeld (finishOk v s) := ⟨rfl, .inl ⟨rfl, rfl⟩⟩

theorem outcomeHeld_finishFail {c : Code} (hc : c ≠ .ok) (s : State) : OutcomeHeld (finishFail c s) :=
  ⟨rfl, .inr ⟨rfl, hc, rfl⟩⟩

theorem outcomeHeld_requestError {c : Code} {s : State} (hs : s.estate = .idle) (hc : c ≠ .ok) :
    OutcomeHeld (requestError c s) :=
  ⟨hs, .inr ⟨rfl, hc, rfl⟩⟩

/-- DONE stays as it was, or is 1 with the outcome. -/
def DoneWithOutcome (s t : State) : Prop := t.done = s.done ∨ (t.done = true ∧ OutcomeHeld t)

theorem doneWithOutcome_rxdirStep (s : State) : DoneWithOutcome s (rxdirStep s) := by
  unfold rxdirStep
  split
  · exact .inl rfl
  · exact .inr ⟨rfl, outcomeHeld_finishOk ..⟩

theorem doneWithOutcome_armStep (p : FlushPolicy) (s : State) : DoneWithOutcome s (armStep p s) := by
  unfold armStep
  split <;> exact .inl rfl

/-- The byte or the timeout that ends an attempt names its cause, which is a failure's code (R31, R170). -/
theorem doneWithOutcome_parseStep {s t : State} (h : parseStep s = .next t) : DoneWithOutcome s t := by
  obtain ⟨b, u, -, hu, rfl⟩ | ⟨-, rfl⟩ := parseStep_cases h
  · obtain ⟨hpub, hcause⟩ := byteTaken_of_onByte hu
    by_cases hf : u.pstate = .failed
    · have hcode : u.pfail.code ≠ .ok := by obtain e | e := hcause hf <;> simp [e, PFail.code]
      rw [afterTransition_failed hf]
      exact .inr ⟨rfl, outcomeHeld_finishFail hcode u⟩
    · have hdone : u.done = s.done := congrArg Published.done hpub
      exact .inl ((afterTransition_done_of_ne_failed hf).trans hdone)
  · rw [afterTransition_failed rfl]
    exact .inr ⟨rfl, outcomeHeld_finishFail (c := .timeout) nofun _⟩

theorem doneWithOutcome_sbpfStep {p : FlushPolicy} {s t : State} (h : sbpfStep p s = .next t) : DoneWithOutcome s t := by
  obtain rfl | ⟨-, rfl⟩ | ⟨-, h⟩ | ⟨-, rfl⟩ | ⟨-, rfl⟩ | ⟨-, h⟩ | ⟨-, h⟩ := sbpfStep_cases h
  · exact .inl rfl
  · exact .inl rfl
  · obtain ⟨_, _, _, rfl⟩ := txsendStep_sends h
    exact .inl rfl
  · exact doneWithOutcome_rxdirStep s
  · exact doneWithOutcome_armStep p s
  · exact doneWithOutcome_parseStep h
  · obtain ⟨v, rfl⟩ | rfl := filterStep_next h
    · exact .inr ⟨rfl, outcomeHeld_finishOk v s⟩
    · exact .inl rfl

/-- From IDLE to the first step of an operation, which starts with DONE and RESULT 0 (R191). -/
def StartsOperation (s t : State) : Prop :=
  s.estate = .idle ∧ (t.estate = .txdir ∨ t.estate = .rxdir) ∧ t.result = 0 ∧ t.done = false

/-- Of the host's accesses a refused request sets DONE with its outcome and an accepted one clears it (R191, R192). -/
theorem done_of_hostTurn {s t : State} {a : HostAccess} (h : HostTurn s a t) : DoneWithOutcome s t ∨ StartsOperation s t := by
  cases h with
  | ignored | read | payload => exact .inl (.inl rfl)
  | request _ _ _ hw =>
    cases hw with
    | dropped => exact .inl (.inl rfl)
    | refused _ hidle hc => exact .inl (.inr ⟨rfl, outcomeHeld_requestError hidle hc⟩)
    | accepted _ _ _ _ e hidle he =>
      have hnext : e = .txdir ∨ e = .rxdir := by
        rw [he]
        split
        · exact .inr rfl
        · exact .inl rfl
      exact .inr ⟨hidle, hnext, rfl, rfl⟩

/-- What a turn does to DONE: it stays or is 1 with the outcome, unless an operation starts or the turn is a reset. -/
theorem done_of_stepUnder {p : FlushPolicy} {s t : State} (h : stepUnder p s = .next t) :
    DoneWithOutcome s t ∨ StartsOperation s t ∨ (t.done = false ∧ t.resets = s.resets + 1) := by
  obtain ⟨rest, hsbpf | ⟨a, -, hhost⟩ | ⟨level, rfl⟩⟩ := stepUnder_turn h
  · have hdone := doneWithOutcome_sbpfStep hsbpf
    exact .inl hdone
  · have hdone := done_of_hostTurn hhost
    exact hdone.imp_right .inl
  · obtain e | e := driveReset_cases level { s with schedule := rest } <;> rw [e]
    · exact .inl (.inl rfl)
    · exact .inr (.inr ⟨rfl, rfl⟩)

/-- Settles O42, by what the turn did to DONE. -/
theorem doneRisesWithTheOutcome : Obligations.DoneRisesWithTheOutcome := by
  intro p s t h
  unfold doneOutput
  obtain (hsame | ⟨hdone, hheld⟩) | ⟨hidle, hnext, hresult, hclear⟩ | ⟨hclear, hresets⟩ := done_of_stepUnder h
  · exact ⟨fun hs ht => by simp [hs, ht] at hsame, fun hs ht => by simp [hs, ht] at hsame⟩
  · exact ⟨fun _ _ => hheld, fun _ ht => by simp [hdone] at ht⟩
  · exact ⟨fun _ ht => by simp [hclear] at ht, fun _ _ => .inl ⟨hidle, hnext, hresult⟩⟩
  · exact ⟨fun _ ht => by simp [hclear] at ht, fun _ _ => .inr hresets⟩

/-! SBPF's steps read neither OVR nor the host's last read: replacing the two before a step changes what it answers in those
two fields only. -/

/-- `s` with other values for what the host changes while an operation runs: OVR and its last read (R252, R253). -/
def withHostView (o : Bool) (v : Half) (s : State) : State := { s with ovr := o, rdata := v }

section
variable (o : Bool) (v : Half) (s : State)

/-! The fields a step branches on. -/

@[simp] theorem withHostView_estate : (withHostView o v s).estate = s.estate := rfl
@[simp] theorem withHostView_opr : (withHostView o v s).opr = s.opr := rfl
@[simp] theorem withHostView_ra : (withHostView o v s).ra = s.ra := rfl
@[simp] theorem withHostView_first : (withHostView o v s).first = s.first := rfl
@[simp] theorem withHostView_pstate : (withHostView o v s).pstate = s.pstate := rfl
@[simp] theorem withHostView_acc : (withHostView o v s).acc = s.acc := rfl
@[simp] theorem withHostView_cnt : (withHostView o v s).cnt = s.cnt := rfl
@[simp] theorem withHostView_flen : (withHostView o v s).flen = s.flen := rfl
@[simp] theorem withHostView_rst : (withHostView o v s).rst = s.rst := rfl
@[simp] theorem readResult_withHostView : readResult (withHostView o v s) = readResult s := rfl

/-! The steps that always answer a next state, and the transitions. -/

theorem rxdirStep_withHostView : rxdirStep (withHostView o v s) = withHostView o v (rxdirStep s) := by
  unfold rxdirStep
  rw [withHostView_opr]
  split <;> rfl

theorem armStep_withHostView (p : FlushPolicy) : armStep p (withHostView o v s) = withHostView o v (armStep p s) := by
  unfold armStep
  rw [withHostView_first]
  split <;> rfl

theorem matchOrRearm_withHostView (m : Bool) (r : Half) :
    matchOrRearm m r (withHostView o v s) = withHostView o v (matchOrRearm m r s) := by
  unfold matchOrRearm
  split <;> rfl

theorem onSeekSync1_withHostView (b : Byte) :
    onSeekSync1 b (withHostView o v s) = withHostView o v (onSeekSync1 b s) := by
  unfold onSeekSync1
  split <;> rfl

theorem onSeekSync2_withHostView (b : Byte) :
    onSeekSync2 b (withHostView o v s) = withHostView o v (onSeekSync2 b s) := by
  unfold onSeekSync2
  split <;> rfl

theorem onReadLength_withHostView (b : Byte) :
    onReadLength b (withHostView o v s) = withHostView o v (onReadLength b s) := by
  unfold onReadLength
  split <;> rfl

theorem afterTransition_withHostView : afterTransition (withHostView o v s) = withHostView o v (afterTransition s) := by
  unfold afterTransition
  rw [withHostView_pstate]
  cases s.pstate <;> rfl

/-! The steps that can stop: they stop for the same reason. -/

theorem onReadBody_withHostView (b : Byte) :
    onReadBody b (withHostView o v s) = thenState (onReadBody b s) (withHostView o v) := by
  unfold onReadBody
  rw [withHostView_cnt, withHostView_flen, withHostView_acc]
  split_ifs <;> rfl

theorem onByte_withHostView (b : Byte) : onByte b (withHostView o v s) = thenState (onByte b s) (withHostView o v) := by
  unfold onByte
  rw [withHostView_pstate]
  cases s.pstate with
  | seekSync1 => exact congrArg Host.Outcome.next (onSeekSync1_withHostView o v s b)
  | seekSync2 => exact congrArg Host.Outcome.next (onSeekSync2_withHostView o v s b)
  | readLength => exact congrArg Host.Outcome.next (onReadLength_withHostView o v s b)
  | readBody => exact onReadBody_withHostView o v s b
  | readId | complete | failed | reserved => rfl

theorem onTimeout_withHostView : onTimeout (withHostView o v s) = thenState (onTimeout s) (withHostView o v) := by
  unfold onTimeout
  rw [withHostView_pstate]
  cases s.pstate <;> rfl

theorem thenState_afterTransition_withHostView (r : Host.Outcome State Fault Refusal) :
    thenState (thenState r (withHostView o v)) afterTransition = thenState (thenState r afterTransition) (withHostView o v) := by
  cases r with
  | next u => exact congrArg Host.Outcome.next (afterTransition_withHostView o v u)
  | fault | refused => rfl

theorem parseStep_withHostView : parseStep (withHostView o v s) = thenState (parseStep s) (withHostView o v) := by
  unfold parseStep
  rw [← thenState_afterTransition_withHostView, readResult_withHostView]
  cases readResult s with
  | byte b => exact congrArg (thenState · afterTransition) (onByte_withHostView o v (tRead s) b)
  | timeout => exact congrArg (thenState · afterTransition) (onTimeout_withHostView o v (tRead s))

/-- A wire command's frame is built from the latched request and TXPL. A request would clear OVR; SBPF's steps run none. -/
theorem exec_wireCommand_withHostView {i : Instr} (h : SpecText.isRequest i = false) :
    exec i (withHostView o v s) = thenState (exec i s) (withHostView o v) := by
  cases i
  case queryId | setId | readPos | move | moveWait | start | stop | enable | txRaw | rxFrame => cases h
  all_goals rfl

theorem runCommand_withHostView (c : Byte) :
    runCommand c (withHostView o v s) = thenState (runCommand c s) (withHostView o v) := by
  unfold runCommand
  cases hc : decodeCmd c with
  | ok i => exact exec_wireCommand_withHostView o v s (isRequest_of_decodeCmd hc)
  | error => rfl

theorem sendRaw_withHostView : sendRaw (withHostView o v s) = thenState (sendRaw s) (withHostView o v) := by
  unfold sendRaw
  rw [withHostView_ra]
  split <;> rfl

theorem txsendStep_withHostView : txsendStep (withHostView o v s) = thenState (txsendStep s) (withHostView o v) := by
  unfold txsendStep
  rw [withHostView_opr]
  split
  · exact sendRaw_withHostView o v s
  · cases commandOf s.opr with
    | some c => exact runCommand_withHostView o v s c
    | none => rfl

theorem filterStep_withHostView : filterStep (withHostView o v s) = thenState (filterStep s) (withHostView o v) := by
  unfold filterStep
  rw [withHostView_opr]
  split_ifs
  · exact congrArg Host.Outcome.next (matchOrRearm_withHostView ..)
  · exact congrArg Host.Outcome.next (matchOrRearm_withHostView ..)
  · rfl
  · rfl

theorem engineStep_withHostView (p : FlushPolicy) :
    engineStep p (withHostView o v s) = thenState (engineStep p s) (withHostView o v) := by
  unfold engineStep
  rw [withHostView_estate]
  cases s.estate with
  | idle | txdir | reserved => rfl
  | txsend => exact txsendStep_withHostView o v s
  | rxdir => exact congrArg Host.Outcome.next (rxdirStep_withHostView o v s)
  | arm => exact congrArg Host.Outcome.next (armStep_withHostView o v s p)
  | parse => exact parseStep_withHostView o v s
  | filter => exact filterStep_withHostView o v s

theorem sbpfStep_withHostView (p : FlushPolicy) :
    sbpfStep p (withHostView o v s) = thenState (sbpfStep p s) (withHostView o v) := by
  unfold sbpfStep
  rw [withHostView_rst, withHostView_pstate, withHostView_estate]
  split_ifs
  · rfl
  · rfl
  · exact engineStep_withHostView o v s p

end

/-- Settles O48, by the answer of the step on the state as it was. -/
theorem operationIgnoresOverrunAndReads : Obligations.OperationIgnoresOverrunAndReads := by
  intro p s o v
  refine (sbpfStep_withHostView o v s p).trans ?_
  cases sbpfStep p s <;> rfl

end Sys2Proof.Machine
end

section
/-! The reset input: what it does when driven, and that nobody else moves while it is asserted (R41, R310, R312). -/

namespace Sys2Proof.Machine

theorem driveReset_eq_resetRegisters {level : Bool} {s : State} (h : level = true ∨ s.rst = true) :
    driveReset level s = resetRegisters level s := if_pos (by simpa using h)

theorem driveReset_eq_self {s : State} (h : s.rst = false) : driveReset false s = s := if_neg (by simp [h])

theorem hostAccess_underReset {s : State} (h : s.rst = true) (a : HostAccess) : hostAccess a s = .next s := if_pos h

theorem sbpfStep_underReset {p : FlushPolicy} {s : State} (h : s.rst = true) : sbpfStep p s = .next s := if_pos h

/-- Settles O35, by whose turn it is: each agent's equation, on the state past that turn. -/
theorem resetInputBehaviour : Obligations.ResetInputBehaviour := by
  refine ⟨fun s level rest hsched hreset => ?driven, fun s a rest hrst hturn => ?held, fun s rest hrst hsched => ?lowAgain⟩
  case driven =>
    have hdrive := driveReset_eq_resetRegisters (s := { s with schedule := rest }) hreset
    exact ⟨_, (stepUnder_resetInput hsched).trans (congrArg Host.Outcome.next hdrive), rfl⟩
  case held =>
    obtain hhost | hsbpf := hturn
    · exact (stepUnder_host hhost).trans (hostAccess_underReset (s := { s with schedule := rest }) hrst a)
    · exact (stepUnder_sbpf hsbpf).trans (sbpfStep_underReset (s := { s with schedule := rest }) hrst)
  case lowAgain =>
    have hdrive := driveReset_eq_self (s := { s with schedule := rest }) hrst
    exact (stepUnder_resetInput hsched).trans (congrArg Host.Outcome.next hdrive)

end Sys2Proof.Machine
end
